-- ==== Sys2Proof/Word.lean ====
section
/-! DEFINITION. The 32-bit register word and the finite sets of names the spec uses:
the six permutation tables, the two S-boxes and the eleven opcodes. -/

namespace Sys2Proof

/-- A register, a command word, a bus data value: 32 bits (00_scope R15, 10_state R31). -/
abbrev Word := BitVec 32

/-- The permutation tables PERM can select and ERRTAB can name (30_encoding R102, 10_state R41).
`ipInv` is the inverse of IP, derived when it is used. -/
inductive PermTable where
  | p10
  | p8
  | ip
  | ep
  | p4
  | ipInv
  deriving DecidableEq, Repr

/-- The two substitution boxes (30_encoding R102). -/
inductive SBoxName where
  | s0
  | s1
  deriving DecidableEq, Repr

/-- The eleven opcodes (30_encoding R101). -/
inductive Opcode where
  | nop
  | keysched
  | encrypt
  | decrypt
  | ipinv
  | round
  | swap
  | perm
  | rotl
  | xor
  | sbox
  deriving DecidableEq, Repr

end Sys2Proof
end

