-- ==== Sys2Proof/Syntax.lean ====
section
/-! DEFINITION. The commands of SDES-CORE, one constructor per row of the opcode table
(30_encoding R101). Lengths and the rotation amount are plain integers (30_encoding R103). -/

namespace Sys2Proof

/-- The commands. `lenA` and `lenB` are operand widths in bits, `n` is the rotation amount. -/
inductive Instr where
  | nop
  | keysched
  | encrypt
  | decrypt
  | ipinv
  | round
  | swap
  | perm (table : PermTable) (lenA : Nat)
  | rotl (lenA : Nat) (n : Nat)
  | xor (lenA : Nat) (lenB : Nat)
  | sbox (box : SBoxName)
  deriving DecidableEq, Repr

/-- The opcode of a command (30_encoding R101). -/
def Instr.opcode : Instr → Opcode
  | .nop => .nop
  | .keysched => .keysched
  | .encrypt => .encrypt
  | .decrypt => .decrypt
  | .ipinv => .ipinv
  | .round => .round
  | .swap => .swap
  | .perm _ _ => .perm
  | .rotl _ _ => .rotl
  | .xor _ _ => .xor
  | .sbox _ => .sbox

end Sys2Proof
end

