-- ==== Sys2Proof/WellFormed.lean ====
section
/-! DEFINITION. Which commands have an encoding: the legal values of the fields (30_encoding R103, R105). -/

namespace Sys2Proof

/-- An operand width OPA and OPB can hold: 1 to 10 (30_encoding R103). -/
def lenLegal (l : Nat) : Bool :=
  decide (1 ≤ l) && decide (l ≤ 10)

/-- A rotation amount the 4-bit field N can hold: 0 to 15 (30_encoding R103). -/
def amountLegal (n : Nat) : Bool :=
  decide (n ≤ 15)

/-- The fields of the command hold legal values (30_encoding R105). -/
def Instr.wellFormed : Instr → Bool
  | .nop => true
  | .keysched => true
  | .encrypt => true
  | .decrypt => true
  | .ipinv => true
  | .round => true
  | .swap => true
  | .perm _ lenA => lenLegal lenA
  | .rotl lenA n => lenLegal lenA && amountLegal n
  | .xor lenA lenB => lenLegal lenA && lenLegal lenB
  | .sbox _ => true

end Sys2Proof
end

