-- ==== Sys2Proof/Decode.lean ====
section
/-! DEFINITION. The command word CMD32: its fields, the decoder, the encoder (30_encoding R100 to R109). -/

namespace Sys2Proof

/-- Why a word is illegal, in the order of 30_encoding R107. The names are the model's: the hardware
reports every one of them as ECODE 4 (DESIGN CHOICE, safe: log 15). -/
inductive IllegalWord where
  | reservedOpcode
  | reservedBitsSet
  | unusedFieldSet
  | selectorOutOfRange
  | lenAOutOfRange
  | lenBOutOfRange
  deriving DecidableEq, Repr

/-- OP, bits [3:0] (30_encoding R100). -/
def fieldOp (w : Word) : Nat := (w.extractLsb' 0 4).toNat

/-- SEL, bits [7:4]. -/
def fieldSel (w : Word) : Nat := (w.extractLsb' 4 4).toNat

/-- LENA, bits [11:8]. -/
def fieldLenA (w : Word) : Nat := (w.extractLsb' 8 4).toNat

/-- LENB, bits [15:12]. -/
def fieldLenB (w : Word) : Nat := (w.extractLsb' 12 4).toNat

/-- N, bits [19:16]. -/
def fieldN (w : Word) : Nat := (w.extractLsb' 16 4).toNat

/-- RSV, bits [31:20]. -/
def fieldRsv (w : Word) : Nat := (w.extractLsb' 20 12).toNat

/-- The table a PERM selector names, 0 to 5; 6 to 15 name none (30_encoding R102). -/
def permTableOfSel : Nat → Option PermTable
  | 0 => some .p10
  | 1 => some .p8
  | 2 => some .ip
  | 3 => some .ep
  | 4 => some .p4
  | 5 => some .ipInv
  | _ => none

/-- The PERM selector of a table (30_encoding R102). -/
def selOfPermTable : PermTable → Nat
  | .p10 => 0
  | .p8 => 1
  | .ip => 2
  | .ep => 3
  | .p4 => 4
  | .ipInv => 5

/-- The S-box an SBOX selector names, 0 or 1 (30_encoding R102). -/
def sboxOfSel : Nat → Option SBoxName
  | 0 => some .s0
  | 1 => some .s1
  | _ => none

/-- The SBOX selector of an S-box (30_encoding R102). -/
def selOfSBox : SBoxName → Nat
  | .s0 => 0
  | .s1 => 1

/-- A command without fields: SEL, LENA, LENB and N must all be 0 (30_encoding R109, opcodes 0 to 6). -/
def decodePlain (w : Word) (i : Instr) : Except IllegalWord Instr :=
  if fieldSel w = 0 ∧ fieldLenA w = 0 ∧ fieldLenB w = 0 ∧ fieldN w = 0 then .ok i
  else .error .unusedFieldSet

/-- PERM: LENB and N 0, SEL 0 to 5, LENA 1 to 10. -/
def decodePerm (w : Word) : Except IllegalWord Instr :=
  if fieldLenB w ≠ 0 ∨ fieldN w ≠ 0 then .error .unusedFieldSet
  else
    match permTableOfSel (fieldSel w) with
    | none => .error .selectorOutOfRange
    | some t => if lenLegal (fieldLenA w) then .ok (.perm t (fieldLenA w)) else .error .lenAOutOfRange

/-- ROTL: SEL and LENB 0, LENA 1 to 10, N any. -/
def decodeRotl (w : Word) : Except IllegalWord Instr :=
  if fieldSel w ≠ 0 ∨ fieldLenB w ≠ 0 then .error .unusedFieldSet
  else if lenLegal (fieldLenA w) then .ok (.rotl (fieldLenA w) (fieldN w))
  else .error .lenAOutOfRange

/-- XOR: SEL and N 0, LENA and LENB 1 to 10. -/
def decodeXor (w : Word) : Except IllegalWord Instr :=
  if fieldSel w ≠ 0 ∨ fieldN w ≠ 0 then .error .unusedFieldSet
  else if !lenLegal (fieldLenA w) then .error .lenAOutOfRange
  else if !lenLegal (fieldLenB w) then .error .lenBOutOfRange
  else .ok (.xor (fieldLenA w) (fieldLenB w))

/-- SBOX: LENA, LENB and N 0, SEL 0 or 1. -/
def decodeSbox (w : Word) : Except IllegalWord Instr :=
  if fieldLenA w ≠ 0 ∨ fieldLenB w ≠ 0 ∨ fieldN w ≠ 0 then .error .unusedFieldSet
  else
    match sboxOfSel (fieldSel w) with
    | none => .error .selectorOutOfRange
    | some b => .ok (.sbox b)

/-- The decoder, total on every 32-bit word (30_encoding R106, R109). -/
def decode (w : Word) : Except IllegalWord Instr :=
  if fieldRsv w ≠ 0 then .error .reservedBitsSet
  else
    match fieldOp w with
    | 0 => decodePlain w .nop
    | 1 => decodePlain w .keysched
    | 2 => decodePlain w .encrypt
    | 3 => decodePlain w .decrypt
    | 4 => decodePlain w .ipinv
    | 5 => decodePlain w .round
    | 6 => decodePlain w .swap
    | 7 => decodePerm w
    | 8 => decodeRotl w
    | 9 => decodeXor w
    | 10 => decodeSbox w
    | _ => .error .reservedOpcode

/-- The opcode of the word's command, none for an illegal word: what LAT depends on
(70_reset_and_hazards R296). -/
def latencyClass (w : Word) : Option Opcode :=
  match decode w with
  | .ok i => some i.opcode
  | .error _ => none

/-- The command word from its fields, RSV 0 (30_encoding R100). -/
def packFields (op sel lenA lenB n : Nat) : Word :=
  BitVec.ofNat 32 (op + 16 * sel + 256 * lenA + 4096 * lenB + 65536 * n)

/-- The word of a command (30_encoding R105). -/
def encode : Instr → Word
  | .nop => packFields 0 0 0 0 0
  | .keysched => packFields 1 0 0 0 0
  | .encrypt => packFields 2 0 0 0 0
  | .decrypt => packFields 3 0 0 0 0
  | .ipinv => packFields 4 0 0 0 0
  | .round => packFields 5 0 0 0 0
  | .swap => packFields 6 0 0 0 0
  | .perm t lenA => packFields 7 (selOfPermTable t) lenA 0 0
  | .rotl lenA n => packFields 8 0 lenA 0 n
  | .xor lenA lenB => packFields 9 0 lenA lenB 0
  | .sbox b => packFields 10 (selOfSBox b) 0 0 0

/-- The 32-bit word that `nbits` bits of the opcode table's numbering give, the bits above them 0. A
command is one whole word, so it has no other layout (30_encoding R100, R111). -/
def tableWord (nbits w : Nat) : Word :=
  BitVec.ofNat 32 (w % 2 ^ nbits)

/-- The command the decoder reads from a row's word, none where the word is illegal. A number that
needs more than 32 bits is no command word. -/
def decodeTableWord (nbits w : Nat) : Option Instr :=
  if w % 2 ^ nbits < 2 ^ 32 then
    match decode (tableWord nbits w) with
    | .ok i => some i
    | .error _ => none
  else none

end Sys2Proof
end

