-- ==== Sys2Proof/Config.lean ====
section
/-! DEFINITION. What the spec leaves open: the latency of each command and the base of the window.
Both rest on constants without a body, so every claim holds whatever they are. -/

namespace Sys2Proof

/-- LAT(op) less one, for each opcode, and for illegal words at `none` (70_reset_and_hazards R302).
DESIGN CHOICE, safe: log 4. -/
opaque Config.latencyBelow : Option Opcode → Nat

/-- LAT(op): cycles from acceptance to completion, at least 1 (70_reset_and_hazards R302). -/
def Config.lat (c : Option Opcode) : Nat :=
  Config.latencyBelow c + 1

/-- The number of 256-byte pages below the register window (20_memory R70). DESIGN CHOICE, safe: log 5. -/
opaque Config.basePage : Nat

/-- SDES_BASE, a multiple of 256 placed by the platform (20_memory R70). -/
def Config.sdesBase : Nat :=
  256 * Config.basePage

end Sys2Proof
end

