-- ==== Sys2Proof/Machine/State.lean ====
section
/-! DEFINITION. The state of one engine: its registers by class (10_state R31), its hidden sequencer
state (10_state R61), and the host's side of the bus as plain data. The machine after reset
(70_reset_and_hazards R290 to R292). -/

namespace Sys2Proof.Machine

/-- The registers of the window (10_state R31). -/
inductive Reg where
  | id
  | ctrl
  | cmd
  | status
  | key
  | din
  | dout
  | k1
  | k2
  | ipinv
  | opa
  | opb
  | res
  | p10a
  | p10b
  | p8
  | ip
  | ep
  | p4
  | s0
  | s1
  deriving DecidableEq, Repr

/-- How the host may access a register (10_state R31). -/
inductive RegAccess where
  /-- RO. -/
  | readOnly
  /-- RW: a control register, written while busy as when idle (CTRL). -/
  | control
  /-- RO/W1C: STATUS. -/
  | writeOneToClear
  /-- RW/issue: CMD. -/
  | issue
  /-- RW: an input or table register, not written while busy. -/
  | input
  deriving DecidableEq, Repr

/-- The errors a command can end with (60_exceptions R260). -/
inductive CmdError where
  | configuration (table : PermTable)
  | lengthMismatch
  | domain
  | illegalCommand
  deriving DecidableEq, Repr

/-- The fields of STATUS that exist; bits [7] and [31:16] are reserved (10_state R35). -/
structure Status where
  busy : Bool
  done : Bool
  err : Bool
  bviol : Bool
  ecode : BitVec 3
  errtab : BitVec 4
  reslen : BitVec 4
  deriving DecidableEq, Repr

/-- The input registers, each with the bits that exist: the host writes them, commands read them, no
command writes them (10_state R43, R44, R49, R50, R52 to R60). -/
structure Inputs where
  key : BitVec 10
  din : BitVec 8
  opa : BitVec 10
  opb : BitVec 10
  p10a : BitVec 32
  p10b : BitVec 8
  p8 : BitVec 32
  ip : BitVec 32
  ep : BitVec 32
  p4 : BitVec 16
  s0 : BitVec 32
  s1 : BitVec 32
  deriving DecidableEq, Repr

/-- The output registers: only commands write them, no command reads them (10_state R45 to R48, R51, R59). -/
structure Outputs where
  dout : BitVec 8
  k1 : BitVec 8
  k2 : BitVec 8
  ipinv : BitVec 32
  res : BitVec 10
  deriving DecidableEq, Repr

/-- One host access: a byte address, a width in bytes and, for a write, the data (00_scope R21). The
data of a write that is not 4 bytes wide is never looked at (log 18). -/
inductive BusAccess where
  | read (addr : Nat) (width : Nat)
  | write (addr : Nat) (width : Nat) (value : Word)
  deriving DecidableEq, Repr

/-- The two bus responses (00_scope R21). -/
inductive BusResponse where
  | okay
  | error
  deriving DecidableEq, Repr

/-- What an access gets back: the response, and the data of a read (0 for a write or an error:
20_memory R72 to R77). -/
structure BusReply where
  response : BusResponse
  data : Word
  deriving DecidableEq, Repr

/-- What the world outside does to the engine in one cycle (log 1). -/
inductive HostEvent where
  /-- No access. -/
  | idle
  /-- One bus access. -/
  | access (a : BusAccess)
  /-- Reset is asserted (70_reset_and_hazards R290). -/
  | reset
  deriving DecidableEq, Repr

/-- The state of one engine. -/
structure State where
  /-- CTRL.IRQEN (10_state R33). -/
  irqen : Bool
  /-- CMD, all 32 bits; while busy, the accepted command (10_state R34, R61). -/
  cmd : Word
  /-- STATUS (10_state R35). -/
  status : Status
  /-- The input registers. -/
  inputs : Inputs
  /-- The output registers. -/
  outputs : Outputs
  /-- The hidden count of cycles left before completion (10_state R61). -/
  count : Nat
  /-- The model's own: what the host does in the coming cycles, the next one first; past its end the
  host does nothing (DESIGN CHOICE: log 1). -/
  inbox : List HostEvent
  /-- The model's own: the reply to the access of the last cycle, if it had one (DESIGN CHOICE: log 2). -/
  resp : Option BusReply
  deriving DecidableEq, Repr

/-- Why a step can stop. -/
inductive Fault where
  /-- Raised by the cycle for a host access at an address outside the engine's window, which the
  spec gives no such access to (20_memory R70, R71). Safe: the model stops where the platform would
  route the access to another device and the engine would go on unchanged (log 6). -/
  | outsideWindow
  deriving DecidableEq, Repr

/-- Why a command can have no meaning. -/
inductive Refusal where
  /-- For an arm of `exec` whose command has no meaning yet; no arm uses it. Safe: the model stops. -/
  | notModelled (mnemonic : String)
  deriving DecidableEq, Repr

/-- STATUS after reset: 0x00000000 (70_reset_and_hazards R291). -/
def Status.reset : Status where
  busy := false
  done := false
  err := false
  bviol := false
  ecode := 0
  errtab := 0
  reslen := 0

/-- The input registers after reset: 0, and the default tables (10_state R31, 70_reset_and_hazards R292). -/
def Inputs.reset : Inputs where
  key := 0
  din := 0
  opa := 0
  opb := 0
  p10a := 0x91A47253
  p10b := 0x68
  p8 := 0x9A584736
  ip := 0x75841362
  ep := 0x14323214
  p4 := 0x1342
  s0 := 0xB7D81BB1
  s1 := 0xC613D2E4

/-- The output registers after reset: 0 (70_reset_and_hazards R292). -/
def Outputs.reset : Outputs where
  dout := 0
  k1 := 0
  k2 := 0
  ipinv := 0
  res := 0

/-- The machine right after reset: idle, the interrupt disabled, CMD the NOP word, the hidden count
cleared (70_reset_and_hazards R290 to R292); the host does nothing (log 1, 2, 11). -/
def State.reset : State where
  irqen := false
  cmd := 0
  status := Status.reset
  inputs := Inputs.reset
  outputs := Outputs.reset
  count := 0
  inbox := []
  resp := none

end Sys2Proof.Machine
end

