-- ==== Sys2Proof/Machine/Flags.lean ====
section
/-! DEFINITION. STATUS: the word it reads as, what acceptance, completion, a host write and a discarded
write do to it; the error codes; the interrupt level. SDES-CORE has no other flags (10_state R65). -/

namespace Sys2Proof.Machine

/-- The word a read of STATUS returns: [0] BUSY, [1] DONE, [2] ERR, [3] BVIOL, [6:4] ECODE, [11:8]
ERRTAB, [15:12] RESLEN, the rest 0 (10_state R35). -/
def Status.word (st : Status) : Word :=
  0#16 ++ st.reslen ++ st.errtab ++ 0#1 ++ st.ecode ++ BitVec.ofBool st.bviol ++ BitVec.ofBool st.err
    ++ BitVec.ofBool st.done ++ BitVec.ofBool st.busy

/-- STATUS.ECODE of an error (60_exceptions R260). -/
def CmdError.ecode : CmdError → BitVec 3
  | .configuration _ => 1
  | .lengthMismatch => 2
  | .domain => 3
  | .illegalCommand => 4

/-- STATUS.ERRTAB code of a table: its PERM selector plus 1 (10_state R41). -/
def errtabOfTable (t : PermTable) : BitVec 4 :=
  BitVec.ofNat 4 (selOfPermTable t + 1)

/-- STATUS.ERRTAB of an error: the failing table for a ConfigurationError, else 0 (10_state R41). -/
def CmdError.errtab : CmdError → BitVec 4
  | .configuration t => errtabOfTable t
  | .lengthMismatch => 0
  | .domain => 0
  | .illegalCommand => 0

/-- Acceptance: BUSY set, DONE cleared, the rest kept (70_reset_and_hazards R296). -/
def Status.accept (st : Status) : Status :=
  { st with busy := true, done := false }

/-- Successful completion: ECODE and ERRTAB 0, DONE set, BUSY cleared, ERR and BVIOL kept
(60_exceptions R268). -/
def Status.completeOk (st : Status) : Status :=
  { st with ecode := 0, errtab := 0, done := true, busy := false }

/-- Error completion: ECODE and ERRTAB from the error, ERR and DONE set, BUSY cleared, RESLEN and
BVIOL kept (60_exceptions R267). -/
def Status.completeError (st : Status) (e : CmdError) : Status :=
  { st with ecode := e.ecode, errtab := e.errtab, err := true, done := true, busy := false }

/-- A host write to STATUS: a 1 in bit [1], [2] or [3] clears DONE, ERR or BVIOL; all else is kept
(10_state R35). -/
def Status.clear (st : Status) (v : Word) : Status :=
  { st with
    done := st.done && !v.getLsbD 1
    err := st.err && !v.getLsbD 2
    bviol := st.bviol && !v.getLsbD 3 }

/-- A write discarded because the engine is busy: BVIOL set (10_state R39, 70_reset_and_hazards R298). -/
def Status.violate (st : Status) : Status :=
  { st with bviol := true }

/-- RESLEN takes the width of a result written to RES (10_state R42). -/
def Status.setReslen (st : Status) (m : Nat) : Status :=
  { st with reslen := BitVec.ofNat 4 m }

/-- The interrupt output, a level: CTRL.IRQEN and STATUS.DONE (60_exceptions R271). -/
def State.irq (s : State) : Bool :=
  s.irqen && s.status.done

end Sys2Proof.Machine
end

