-- ==== Sys2Proof/Machine/Operands.lean ====
section
/-! DEFINITION. The operand forms: the bit slices of OPA, OPB, KEY and DIN that a command reads
(30_encoding R110), the tables as the registers hold them (10_state R52 to R58), and the packing of a
derived table (10_state R48). All of them read input registers alone (10_state R59). -/

namespace Sys2Proof.Machine

/-- Entry `j` (from 0) of a packed table: nibble `j` of the register (10_state R52 to R56). -/
def nibble {w : Nat} (r : BitVec w) (j : Nat) : Nat :=
  (r.extractLsb' (4 * j) 4).toNat

/-- The first `k` entries of a packed table, in source order (10_state R52 to R56). -/
def nibbles {w : Nat} (k : Nat) (r : BitVec w) : List Nat :=
  (List.range k).map (nibble r)

/-- P10: entries 1 to 8 from P10A, entries 9 and 10 from P10B (10_state R52). -/
def Inputs.tableP10 (x : Inputs) : List Nat := nibbles 8 x.p10a ++ nibbles 2 x.p10b

/-- P8 (10_state R53). -/
def Inputs.tableP8 (x : Inputs) : List Nat := nibbles 8 x.p8

/-- IP (10_state R54). -/
def Inputs.tableIp (x : Inputs) : List Nat := nibbles 8 x.ip

/-- EP (10_state R55). -/
def Inputs.tableEp (x : Inputs) : List Nat := nibbles 8 x.ep

/-- P4 (10_state R56). -/
def Inputs.tableP4 (x : Inputs) : List Nat := nibbles 4 x.p4

/-- Entry (`row`, `col`) of an S-box register: bits [2(4r+c)+1 : 2(4r+c)] (10_state R57, R58). -/
def sboxEntry (S : BitVec 32) (row col : Nat) : BitVec 2 :=
  S.extractLsb' (2 * (4 * row + col)) 2

/-- The register of an S-box (42_sbox R172). -/
def Inputs.sboxReg (x : Inputs) : SBoxName → BitVec 32
  | .s0 => x.s0
  | .s1 => x.s1

/-- OPA[len-1:0] (30_encoding R110). -/
def Inputs.operandA (x : Inputs) (len : Nat) : BitVec len := x.opa.setWidth len

/-- OPB[len-1:0] (30_encoding R110). -/
def Inputs.operandB (x : Inputs) (len : Nat) : BitVec len := x.opb.setWidth len

/-- The number a packed table is: entry `j` (from 1) at bits [4j-1:4j-4] (10_state R54). -/
def packNat : List Nat → Nat
  | [] => 0
  | t :: ts => t + 16 * packNat ts

/-- `pack` of 45_cipher_engine R223: a derived table as IPINV holds it (10_state R48). -/
def packTable (T : List Nat) : BitVec 32 :=
  BitVec.ofNat 32 (packNat T)

/-- The high half of an 8-bit value, its first four characters (44_feistel_round R200). -/
def highHalf (b : BitVec 8) : BitVec 4 := b.extractLsb' 4 4

/-- The low half of an 8-bit value (44_feistel_round R200). -/
def lowHalf (b : BitVec 8) : BitVec 4 := b.extractLsb' 0 4

end Sys2Proof.Machine
end

