-- ==== Sys2Proof/Machine/Ops.lean ====
section
/-! DEFINITION. The named operations over the registers: the map, reading a register, writing one, the
writes a command makes, and the two completions. The error completion is this machine's taking of an
exception; it has no trap entry and no return from one (60_exceptions R267, R270). -/

namespace Sys2Proof.Machine

/-- The offset of a register in the window (10_state R31). -/
def Reg.offset : Reg → Nat
  | .id => 0x00
  | .ctrl => 0x04
  | .cmd => 0x08
  | .status => 0x0C
  | .key => 0x10
  | .din => 0x14
  | .dout => 0x18
  | .k1 => 0x1C
  | .k2 => 0x20
  | .ipinv => 0x24
  | .opa => 0x28
  | .opb => 0x2C
  | .res => 0x30
  | .p10a => 0x34
  | .p10b => 0x38
  | .p8 => 0x3C
  | .ip => 0x40
  | .ep => 0x44
  | .p4 => 0x48
  | .s0 => 0x4C
  | .s1 => 0x50

/-- The register at an offset; none where the offset is misaligned or reserved (10_state R31,
20_memory R73, R74). -/
def regAt : Nat → Option Reg
  | 0x00 => some .id
  | 0x04 => some .ctrl
  | 0x08 => some .cmd
  | 0x0C => some .status
  | 0x10 => some .key
  | 0x14 => some .din
  | 0x18 => some .dout
  | 0x1C => some .k1
  | 0x20 => some .k2
  | 0x24 => some .ipinv
  | 0x28 => some .opa
  | 0x2C => some .opb
  | 0x30 => some .res
  | 0x34 => some .p10a
  | 0x38 => some .p10b
  | 0x3C => some .p8
  | 0x40 => some .ip
  | 0x44 => some .ep
  | 0x48 => some .p4
  | 0x4C => some .s0
  | 0x50 => some .s1
  | _ => none

/-- The access type of a register (10_state R31). -/
def Reg.access : Reg → RegAccess
  | .id => .readOnly
  | .ctrl => .control
  | .cmd => .issue
  | .status => .writeOneToClear
  | .key => .input
  | .din => .input
  | .dout => .readOnly
  | .k1 => .readOnly
  | .k2 => .readOnly
  | .ipinv => .readOnly
  | .opa => .input
  | .opb => .input
  | .res => .readOnly
  | .p10a => .input
  | .p10b => .input
  | .p8 => .input
  | .ip => .input
  | .ep => .input
  | .p4 => .input
  | .s0 => .input
  | .s1 => .input

/-- The constant of the ID register, hard-wired (10_state R32; log 8). -/
def idValue : Word := 0x53444553

/-- The value a read of a register returns: its bits that exist, the reserved ones 0 (10_state R64,
20_memory R76). -/
def State.readReg (s : State) : Reg → Word
  | .id => idValue
  | .ctrl => (BitVec.ofBool s.irqen).setWidth 32
  | .cmd => s.cmd
  | .status => s.status.word
  | .key => s.inputs.key.setWidth 32
  | .din => s.inputs.din.setWidth 32
  | .dout => s.outputs.dout.setWidth 32
  | .k1 => s.outputs.k1.setWidth 32
  | .k2 => s.outputs.k2.setWidth 32
  | .ipinv => s.outputs.ipinv
  | .opa => s.inputs.opa.setWidth 32
  | .opb => s.inputs.opb.setWidth 32
  | .res => s.outputs.res.setWidth 32
  | .p10a => s.inputs.p10a
  | .p10b => s.inputs.p10b.setWidth 32
  | .p8 => s.inputs.p8
  | .ip => s.inputs.ip
  | .ep => s.inputs.ep
  | .p4 => s.inputs.p4.setWidth 32
  | .s0 => s.inputs.s0
  | .s1 => s.inputs.s1

/-- An input register takes the bits that exist of the written value (10_state R64, 20_memory R77).
A register of another class is no input register: nothing changes. -/
def Inputs.write (x : Inputs) (r : Reg) (v : Word) : Inputs :=
  match r with
  | .key => { x with key := v.setWidth 10 }
  | .din => { x with din := v.setWidth 8 }
  | .opa => { x with opa := v.setWidth 10 }
  | .opb => { x with opb := v.setWidth 10 }
  | .p10a => { x with p10a := v }
  | .p10b => { x with p10b := v.setWidth 8 }
  | .p8 => { x with p8 := v }
  | .ip => { x with ip := v }
  | .ep => { x with ep := v }
  | .p4 => { x with p4 := v.setWidth 16 }
  | .s0 => { x with s0 := v }
  | .s1 => { x with s1 := v }
  | .id => x
  | .ctrl => x
  | .cmd => x
  | .status => x
  | .dout => x
  | .k1 => x
  | .k2 => x
  | .ipinv => x
  | .res => x

/-- A host write to an input register (20_memory R77). -/
def State.writeInput (s : State) (r : Reg) (v : Word) : State :=
  { s with inputs := s.inputs.write r v }

/-- A host write to CTRL: IRQEN takes bit [0] (10_state R33). -/
def State.writeCtrl (s : State) (v : Word) : State :=
  { s with irqen := v.getLsbD 0 }

/-- A host write to STATUS (10_state R35). -/
def State.writeStatus (s : State) (v : Word) : State :=
  { s with status := s.status.clear v }

/-- A host write discarded because the engine is busy (70_reset_and_hazards R298). -/
def State.discardWrite (s : State) : State :=
  { s with status := s.status.violate }

/-- Acceptance of a command word: CMD takes it, BUSY is set, DONE cleared, and the hidden count set to
the latency of the word (70_reset_and_hazards R296). -/
def State.accept (s : State) (w : Word) : State :=
  { s with cmd := w, status := s.status.accept, count := Config.lat (latencyClass w) }

/-- A result of `m` bits, zero-extended: RES takes it and RESLEN the width (30_encoding R110). -/
def State.writeResult (s : State) (m : Nat) (v : BitVec 10) : State :=
  { s with outputs := { s.outputs with res := v }, status := s.status.setReslen m }

/-- K1 and K2 take the subkeys (43_key_scheduler R188). -/
def State.writeSubkeys (s : State) (k1 k2 : BitVec 8) : State :=
  { s with outputs := { s.outputs with k1 := k1, k2 := k2 } }

/-- IPINV takes a derived table, packed (45_cipher_engine R223, R225). -/
def State.writeIpinv (s : State) (inv : List Nat) : State :=
  { s with outputs := { s.outputs with ipinv := packTable inv } }

/-- DOUT takes the output block (45_cipher_engine R223). -/
def State.writeDout (s : State) (b : BitVec 8) : State :=
  { s with outputs := { s.outputs with dout := b } }

/-- The successful completion (60_exceptions R268). -/
def State.completeOk (s : State) : State :=
  { s with status := s.status.completeOk }

/-- The error completion, shared by every command and by illegal words: no output register is
written; STATUS takes the error (60_exceptions R267). -/
def State.completeError (s : State) (e : CmdError) : State :=
  { s with status := s.status.completeError e }

/-- A command's completion in one step: `result` is what its checks and its computation give. On
success its writes and the successful completion, on an error the error completion alone
(60_exceptions R267 to R269, 70_reset_and_hazards R297). -/
def complete {α : Type} (s : State) (result : Except CmdError α) (write : State → α → State) :
    Host.Outcome State Fault Refusal :=
  match result with
  | .ok a => .next (write s a).completeOk
  | .error e => .next (s.completeError e)

end Sys2Proof.Machine
end

