-- ==== Sys2Proof/Machine/Bus.lean ====
section
/-! DEFINITION. One host access to the register window (20_memory R70 to R77). -/

namespace Sys2Proof.Machine

/-- The byte address of an access. -/
def BusAccess.addr : BusAccess → Nat
  | .read a _ => a
  | .write a _ _ => a

/-- The offset an address has in the window; none outside the window's 256 bytes (20_memory R70). -/
def windowOffset (addr : Nat) : Option Nat :=
  if Config.sdesBase ≤ addr ∧ addr < Config.sdesBase + 256 then some (addr - Config.sdesBase) else none

/-- The register an access of `width` bytes at an offset reaches; none for a width other than 4, a
misaligned or a reserved offset (20_memory R72 to R74). -/
def target (offset width : Nat) : Option Reg :=
  if width = 4 then regAt offset else none

/-- Byte lane `k` of a bus data value: bits [8k+7:8k] (20_memory R78). -/
def byteLane (v : Word) (k : Fin 4) : BitVec 8 :=
  v.extractLsb' (8 * k.val) 8

/-- The reply of an access that gets ERROR (20_memory R72 to R75). -/
def BusReply.failed : BusReply := ⟨.error, 0⟩

/-- The reply of a write that gets OKAY. -/
def BusReply.written : BusReply := ⟨.okay, 0⟩

/-- A read: OKAY and the value, or ERROR and 0; the state is unchanged (20_memory R76, R81). -/
def busRead (s : State) (offset width : Nat) : BusReply :=
  match target offset width with
  | some r => ⟨.okay, s.readReg r⟩
  | none => BusReply.failed

/-- A legal write to register `r` (20_memory R75, R77, 70_reset_and_hazards R296, R298). -/
def writeReg (s : State) (r : Reg) (v : Word) : BusReply × State :=
  match r.access with
  | .readOnly => (BusReply.failed, s)
  | .writeOneToClear => (BusReply.written, s.writeStatus v)
  | .control => (BusReply.written, s.writeCtrl v)
  | .issue => if s.status.busy then (BusReply.failed, s.discardWrite) else (BusReply.written, s.accept v)
  | .input =>
    if s.status.busy then (BusReply.failed, s.discardWrite) else (BusReply.written, s.writeInput r v)

/-- A write: of a register, or ERROR with no change of state (20_memory R72 to R77). -/
def busWrite (s : State) (offset width : Nat) (v : Word) : BusReply × State :=
  match target offset width with
  | some r => writeReg s r v
  | none => (BusReply.failed, s)

/-- `BusAccess` of 20_memory R77, at the offset the access has in the window. -/
def busAccess (s : State) (offset : Nat) : BusAccess → BusReply × State
  | .read _ width => (busRead s offset width, s)
  | .write _ width v => busWrite s offset width v

end Sys2Proof.Machine
end

