-- ==== Sys2Proof/Machine/BitOps.lean ====
section
/-! DEFINITION. The XOR/rotate unit and the commands ROTL and XOR (41_bitops). -/

namespace Sys2Proof.Machine

/-- `RotL(v, L, k)`: left rotation of an L-bit value; DomainError for `k > L` (41_bitops R150). -/
def rotL {L : Nat} (v : BitVec L) (k : Nat) : Except CmdError (BitVec L) :=
  if k > L then .error .domain else .ok ((v <<< k) ||| (v >>> (L - k)))

/-- `Xor(a, la, b, lb)`: LengthMismatchError for unequal widths (41_bitops R152). -/
def xorBits {la lb : Nat} (a : BitVec la) (b : BitVec lb) : Except CmdError (BitVec la) :=
  if la = lb then .ok (a ^^^ b.setWidth la) else .error .lengthMismatch

/-- What ROTL computes (41_bitops R155). -/
def rotlResult (x : Inputs) (lenA n : Nat) : Except CmdError (BitVec 10) := do
  let out ← rotL (x.operandA lenA) n
  return out.setWidth 10

/-- What XOR computes (41_bitops R156). -/
def xorResult (x : Inputs) (lenA lenB : Nat) : Except CmdError (BitVec 10) := do
  let out ← xorBits (x.operandA lenA) (x.operandB lenB)
  return out.setWidth 10

/-- ROTL: rotate operand A left (41_bitops R155). -/
def execRotl (lenA n : Nat) (s : State) : Host.Outcome State Fault Refusal :=
  complete s (rotlResult s.inputs lenA n) fun s v => s.writeResult lenA v

/-- XOR: exclusive OR of operands A and B (41_bitops R156). -/
def execXor (lenA lenB : Nat) (s : State) : Host.Outcome State Fault Refusal :=
  complete s (xorResult s.inputs lenA lenB) fun s v => s.writeResult lenA v

end Sys2Proof.Machine
end

