-- ==== Sys2Proof/Machine/Permuter.lean ====
section
/-! DEFINITION. The permutation unit, the table checks, the inverse of IP, and the command PERM
(40_permuter, 45_cipher_engine R215 to R218). -/

namespace Sys2Proof.Machine

/-- Every entry lies in [1, n] (40_permuter R132). -/
def inRange (n : Nat) (T : List Nat) : Bool :=
  T.all fun t => decide (1 ≤ t) && decide (t ≤ n)

/-- No two entries are equal (45_cipher_engine R218). -/
def noRepeats : List Nat → Bool
  | [] => true
  | t :: ts => !ts.contains t && noRepeats ts

/-- The gathered bits: the first entry gives the most significant bit, and entry `t` over an n-bit
input names bit `n - t` (40_permuter R130). -/
def gather {n : Nat} (v : BitVec n) : (T : List Nat) → BitVec T.length
  | [] => 0#0
  | t :: ts => BitVec.cons (v.getLsbD (n - t)) (gather v ts)

/-- `Permute(v, n, T)`: the range check over the whole table, then the gathered bits; as wide as the
table is long (40_permuter R130 to R132). `tab` names the table in the error. -/
def permute {n : Nat} (tab : PermTable) (v : BitVec n) (T : List Nat) :
    Except CmdError (BitVec T.length) :=
  if inRange n T then .ok (gather v T) else .error (.configuration tab)

/-- The condition of a table (45_cipher_engine R218). IP_INV is derived, so it has none of its own. -/
def Inputs.tableOk (x : Inputs) : PermTable → Bool
  | .p10 => inRange 10 x.tableP10
  | .p8 => inRange 10 x.tableP8
  | .ip => inRange 8 x.tableIp && noRepeats x.tableIp
  | .ep => inRange 4 x.tableEp
  | .p4 => inRange 4 x.tableP4 && noRepeats x.tableP4
  | .ipInv => true

/-- `CheckTable` of several tables in order: the first that breaks its condition raises
ConfigurationError (45_cipher_engine R218, 60_exceptions R266). -/
def checkTables (x : Inputs) : List PermTable → Except CmdError Unit
  | [] => .ok ()
  | t :: ts => if x.tableOk t then checkTables x ts else .error (.configuration t)

/-- The loop of `IpInverse`: `INV[IP[i] - 1] <- i + 1`, from index `i` on (45_cipher_engine R215). -/
def invertFrom (i : Nat) (inv : List Nat) : List Nat → List Nat
  | [] => inv
  | t :: ts => invertFrom (i + 1) (inv.set (t - 1) (i + 1)) ts

/-- The inverse of an 8-entry permutation table (45_cipher_engine R215). -/
def invertTable (T : List Nat) : List Nat :=
  invertFrom 0 (List.replicate 8 0) T

/-- `IpInverse(IP)`: the check of IP, then the inverse (45_cipher_engine R215). -/
def ipInverse (x : Inputs) : Except CmdError (List Nat) := do
  checkTables x [.ip]
  return invertTable x.tableIp

/-- The table a PERM selector names, IP_INV derived from IP on the spot (40_permuter R135, R136). -/
def selectTable (x : Inputs) : PermTable → Except CmdError (List Nat)
  | .p10 => .ok x.tableP10
  | .p8 => .ok x.tableP8
  | .ip => .ok x.tableIp
  | .ep => .ok x.tableEp
  | .p4 => .ok x.tableP4
  | .ipInv => ipInverse x

/-- What PERM computes: the width of the result and the result, zero-extended (40_permuter R135). -/
def permResult (x : Inputs) (table : PermTable) (lenA : Nat) : Except CmdError (Nat × BitVec 10) := do
  let T ← selectTable x table
  let out ← permute table (x.operandA lenA) T
  return (T.length, out.setWidth 10)

/-- PERM: operand A through a selected table (40_permuter R135). -/
def execPerm (table : PermTable) (lenA : Nat) (s : State) : Host.Outcome State Fault Refusal :=
  complete s (permResult s.inputs table lenA) fun s r => s.writeResult r.1 r.2

end Sys2Proof.Machine
end

