-- ==== Sys2Proof/Machine/SBox.lean ====
section
/-! DEFINITION. The substitution-box unit and the command SBOX (42_sbox). -/

namespace Sys2Proof.Machine

/-- The row of a 4-bit input, from its outer bits (42_sbox R170). -/
def sboxRow (v : BitVec 4) : Nat := 2 * (v.getLsbD 3).toNat + (v.getLsbD 0).toNat

/-- The column of a 4-bit input, from its inner bits (42_sbox R170). -/
def sboxCol (v : BitVec 4) : Nat := 2 * (v.getLsbD 2).toNat + (v.getLsbD 1).toNat

/-- `SBoxLookup(v, S)`; it never fails (42_sbox R170, R171). -/
def sboxLookup (v : BitVec 4) (S : BitVec 32) : BitVec 2 :=
  sboxEntry S (sboxRow v) (sboxCol v)

/-- SBOX: operand A looked up in a selected S-box (42_sbox R172). -/
def execSbox (box : SBoxName) (s : State) : Host.Outcome State Fault Refusal :=
  complete s (.ok (sboxLookup (s.inputs.operandA 4) (s.inputs.sboxReg box)))
    fun s v => s.writeResult 2 (v.setWidth 10)

end Sys2Proof.Machine
end

