-- ==== Sys2Proof/Machine/FeistelRound.lean ====
section
/-! DEFINITION. The Feistel round unit and the command ROUND (44_feistel_round). -/

namespace Sys2Proof.Machine

/-- The tables a round uses (44_feistel_round R200). -/
structure RoundTables where
  ep : List Nat
  p4 : List Nat
  s0 : BitVec 32
  s1 : BitVec 32
  deriving DecidableEq, Repr

/-- The round tables the registers hold. -/
def Inputs.roundTables (x : Inputs) : RoundTables where
  ep := x.tableEp
  p4 := x.tableP4
  s0 := x.s0
  s1 := x.s1

/-- The keyed function `F(right4, sk)` of a round: steps 2 to 7 (44_feistel_round R200, R201). -/
def roundF (right4 : BitVec 4) (sk : BitVec 8) (t : RoundTables) : Except CmdError (BitVec 4) := do
  let ep ← permute .ep right4 t.ep
  let mixed ← xorBits (ep.setWidth 8) sk
  let s0out := sboxLookup (highHalf mixed) t.s0
  let s1out := sboxLookup (lowHalf mixed) t.s1
  let combined : BitVec 4 := s0out ++ s1out
  let p4 ← permute .p4 combined t.p4
  return p4.setWidth 4

/-- `Round(b, sk, EP, P4, S0, S1)`: the left half mixed with F of the right half, which passes
through (44_feistel_round R200). -/
def feistelRound (b sk : BitVec 8) (t : RoundTables) : Except CmdError (BitVec 8) := do
  let f ← roundF (lowHalf b) sk t
  let newLeft ← xorBits f (highHalf b)
  return newLeft ++ lowHalf b

/-- What ROUND computes: the checks of EP and P4, then one round (44_feistel_round R202, R203). -/
def roundResult (x : Inputs) : Except CmdError (BitVec 8) := do
  checkTables x [.ep, .p4]
  feistelRound (x.operandA 8) (x.operandB 8) x.roundTables

/-- ROUND: one Feistel round on operand A with subkey operand B (44_feistel_round R203). -/
def execRound (s : State) : Host.Outcome State Fault Refusal :=
  complete s (roundResult s.inputs) fun s b => s.writeResult 8 (b.setWidth 10)

end Sys2Proof.Machine
end

