-- ==== Sys2Proof/Machine/KeyScheduler.lean ====
section
/-! DEFINITION. The key scheduler and the command KEYSCHED (43_key_scheduler). -/

namespace Sys2Proof.Machine

/-- `KeySchedule(key, P10, P8)`: the subkeys K1 and K2, step for step (43_key_scheduler R185, R186). -/
def keySchedule (key : BitVec 10) (P10 P8 : List Nat) : Except CmdError (BitVec 8 × BitVec 8) := do
  let p ← permute .p10 key P10
  let p10 : BitVec 10 := p.setWidth 10
  let left1 ← rotL (p10.extractLsb' 5 5) 1
  let right1 ← rotL (p10.extractLsb' 0 5) 1
  let k1 ← permute .p8 (left1 ++ right1) P8
  let left2 ← rotL left1 2
  let right2 ← rotL right1 2
  let k2 ← permute .p8 (left2 ++ right2) P8
  return (k1.setWidth 8, k2.setWidth 8)

/-- What KEYSCHED computes: the checks of P10 and P8, then the schedule (43_key_scheduler R188). -/
def keyschedResult (x : Inputs) : Except CmdError (BitVec 8 × BitVec 8) := do
  checkTables x [.p10, .p8]
  keySchedule x.key x.tableP10 x.tableP8

/-- KEYSCHED: derive the subkeys of the key in KEY (43_key_scheduler R188). -/
def execKeysched (s : State) : Host.Outcome State Fault Refusal :=
  complete s (keyschedResult s.inputs) fun s k => s.writeSubkeys k.1 k.2

end Sys2Proof.Machine
end

