-- ==== Sys2Proof/Machine/CipherEngine.lean ====
section
/-! DEFINITION. The sequencer and the commands NOP, ENCRYPT, DECRYPT, IPINV and SWAP (45_cipher_engine). -/

namespace Sys2Proof.Machine

/-- `Swap(x)`: exchange the halves (45_cipher_engine R217). -/
def swapHalves (b : BitVec 8) : BitVec 8 := lowHalf b ++ highHalf b

/-- What ENCRYPT and DECRYPT return: the block, the schedule's subkeys and IP_INV (45_cipher_engine R219). -/
structure CipherResult where
  block : BitVec 8
  k1 : BitVec 8
  k2 : BitVec 8
  inv : List Nat
  deriving DecidableEq, Repr

/-- Stages 2 to 6: the initial permutation, a round with the first subkey, the swap, a round with the
second, the inverse permutation; no swap after round 2 (45_cipher_engine R219, R220). -/
def cipherRounds (x : Inputs) (block ka kb : BitVec 8) : Except CmdError (BitVec 8 × List Nat) := do
  let ip ← permute .ip block x.tableIp
  let r1 ← feistelRound (ip.setWidth 8) ka x.roundTables
  let r2 ← feistelRound (swapHalves r1) kb x.roundTables
  let inv ← ipInverse x
  let out ← permute .ipInv r2 inv
  return (out.setWidth 8, inv)

/-- `Encrypt` of DIN under KEY: the checks, the schedule, the rounds with K1 and then K2
(45_cipher_engine R219). -/
def encryptResult (x : Inputs) : Except CmdError CipherResult := do
  checkTables x [.p10, .p8, .ip, .ep, .p4]
  let k ← keySchedule x.key x.tableP10 x.tableP8
  let r ← cipherRounds x x.din k.1 k.2
  return { block := r.1, k1 := k.1, k2 := k.2, inv := r.2 }

/-- `Decrypt` of DIN under KEY: as `Encrypt` with K2 first and K1 second; the subkeys keep their names
(45_cipher_engine R221). -/
def decryptResult (x : Inputs) : Except CmdError CipherResult := do
  checkTables x [.p10, .p8, .ip, .ep, .p4]
  let k ← keySchedule x.key x.tableP10 x.tableP8
  let r ← cipherRounds x x.din k.2 k.1
  return { block := r.1, k1 := k.1, k2 := k.2, inv := r.2 }

/-- The writes of ENCRYPT and DECRYPT: DOUT, K1, K2 and IPINV (45_cipher_engine R223, R224). -/
def State.writeCipher (s : State) (r : CipherResult) : State :=
  ((s.writeDout r.block).writeSubkeys r.k1 r.k2).writeIpinv r.inv

/-- NOP: nothing but the completion (45_cipher_engine R227). -/
def execNop (s : State) : Host.Outcome State Fault Refusal :=
  complete s (.ok ()) fun s _ => s

/-- ENCRYPT: encrypt DIN under KEY (45_cipher_engine R223). -/
def execEncrypt (s : State) : Host.Outcome State Fault Refusal :=
  complete s (encryptResult s.inputs) State.writeCipher

/-- DECRYPT: decrypt DIN under KEY (45_cipher_engine R224). -/
def execDecrypt (s : State) : Host.Outcome State Fault Refusal :=
  complete s (decryptResult s.inputs) State.writeCipher

/-- IPINV: derive IP_INV from IP (45_cipher_engine R225). -/
def execIpinv (s : State) : Host.Outcome State Fault Refusal :=
  complete s (ipInverse s.inputs) State.writeIpinv

/-- SWAP: exchange the halves of operand A (45_cipher_engine R226). -/
def execSwap (s : State) : Host.Outcome State Fault Refusal :=
  complete s (.ok (swapHalves (s.inputs.operandA 8))) fun s b => s.writeResult 8 (b.setWidth 10)

end Sys2Proof.Machine
end

