-- ==== Sys2Proof/Machine/Dispatch.lean ====
section
/-! DEFINITION. One arm per command: the completion of an accepted command (70_reset_and_hazards R297). -/

namespace Sys2Proof.Machine

def exec (i : Instr) (s : State) : Host.Outcome State Fault Refusal :=
  match i with
  | .nop => Sys2Proof.Machine.execNop s
  | .keysched => Sys2Proof.Machine.execKeysched s
  | .encrypt => Sys2Proof.Machine.execEncrypt s
  | .decrypt => Sys2Proof.Machine.execDecrypt s
  | .ipinv => Sys2Proof.Machine.execIpinv s
  | .round => Sys2Proof.Machine.execRound s
  | .swap => Sys2Proof.Machine.execSwap s
  | .perm table lenA => Sys2Proof.Machine.execPerm table lenA s
  | .rotl lenA n => Sys2Proof.Machine.execRotl lenA n s
  | .xor lenA lenB => Sys2Proof.Machine.execXor lenA lenB s
  | .sbox box => Sys2Proof.Machine.execSbox box s

end Sys2Proof.Machine
end

