-- ==== Sys2Proof/Machine/Cycle.lean ====
section
/-! DEFINITION. One clock cycle of the engine: reset, or the host's access and then the engine's own
part (70_reset_and_hazards R290, R297; 10_state R35). -/

namespace Sys2Proof.Machine

/-- What the host does in this cycle; past the end of the inbox, nothing (log 1). -/
def State.event (s : State) : HostEvent :=
  s.inbox.head?.getD .idle

/-- The state as this cycle's event is taken from the inbox; the last cycle's reply is gone (log 1, 2). -/
def State.takeEvent (s : State) : State :=
  { s with inbox := s.inbox.tail, resp := none }

/-- The completion step: decode CMD, and run the command or end with IllegalCommand
(70_reset_and_hazards R297). -/
def completionStep (s : State) : Host.Outcome State Fault Refusal :=
  match decode s.cmd with
  | .ok i => exec i s
  | .error _ => .next (s.completeError .illegalCommand)

/-- The hidden count falls by one (70_reset_and_hazards R297). -/
def State.countDown (s : State) : State :=
  { s with count := s.count - 1 }

/-- The engine's part of a cycle: while busy the count falls, and in the cycle it reaches 0 the
command completes. `busy` is BUSY at the start of the cycle, so the cycle of acceptance is not
counted (70_reset_and_hazards R297; log 3, 4). -/
def engineCycle (busy : Bool) (s : State) : Host.Outcome State Fault Refusal :=
  if busy then
    if s.countDown.count = 0 then completionStep s.countDown else .next s.countDown
  else .next s

/-- Reset: every register at its reset value, the hidden state cleared, a running command abandoned;
what the host does later stands (70_reset_and_hazards R290; log 10). -/
def State.afterReset (s : State) : State :=
  { State.reset with inbox := s.inbox.tail }

/-- The state after this cycle's access, with its reply recorded (log 2). -/
def State.afterAccess (s : State) (offset : Nat) (a : BusAccess) : State :=
  { (busAccess s.takeEvent offset a).2 with resp := some (busAccess s.takeEvent offset a).1 }

/-- One cycle: reset, or the host's access on the state before the engine's part, then the engine's
part (10_state R35, 60_exceptions R273; log 3). -/
def cycle (s : State) : Host.Outcome State Fault Refusal :=
  match s.event with
  | .reset => .next s.afterReset
  | .idle => engineCycle s.status.busy s.takeEvent
  | .access a =>
    match windowOffset a.addr with
    | none => .fault .outsideWindow
    | some o => engineCycle s.status.busy (s.afterAccess o a)

/-- `s` with the word `w` accepted and in its last cycle before completion, in a cycle without a host
access: the next cycle runs it (log 7). -/
def State.withAccepted (s : State) (w : Word) : State :=
  { s with cmd := w, status := s.status.accept, count := 1, inbox := .idle :: s.inbox }

end Sys2Proof.Machine
end

