-- ==== Sys2Proof/Machine/Step.lean ====
section
/-! DEFINITION. One step of the machine, one clock cycle, and the placing of a command for it. -/

namespace Sys2Proof.Machine

/-- One step is one clock cycle (log 1). -/
def step (s : State) : Host.Outcome State Fault Refusal :=
  cycle s

/-- `s` with the word of `nbits` bits `w` as the accepted command that the next step completes (log 7). -/
def State.withFetchWord (s : State) (nbits w : Nat) : State :=
  s.withAccepted (tableWord nbits w)

end Sys2Proof.Machine
end

