-- ==== Sys2Proof/Machine/Strings.lean ====
section
/-! DEFINITION. The source's bit strings and its algorithms over them, as the spec quotes them beside
the register forms (00_scope R16, R17). The machine does not use them; claims compare it with them. -/

namespace Sys2Proof.Machine

/-- `dec_n(v)`: the string of an n-bit value, its first character the most significant bit
(00_scope R17). -/
def stringOf {n : Nat} (v : BitVec n) : List Bool :=
  (List.range n).map fun i => v.getLsbD (n - 1 - i)

/-- `apply(bits, table)`: character `i` is `bits[table[i] - 1]` (40_permuter R130). -/
def strApply (bits : List Bool) (T : List Nat) : List Bool :=
  T.map fun t => bits.getD (t - 1) false

/-- `shift(bits, n)` is `bits[n:] + bits[:n]` (41_bitops R150). -/
def strShift (bits : List Bool) (n : Nat) : List Bool :=
  bits.drop n ++ bits.take n

/-- `xor(a, b)`: a character is 1 iff the two differ (41_bitops R152). -/
def strXor (a b : List Bool) : List Bool :=
  List.zipWith (fun p q => p != q) a b

/-- The binary value of two characters (42_sbox R170). -/
def strPair (a b : Bool) : Nat := 2 * a.toNat + b.toNat

/-- `lookup(bits4, table)`: row from `b0 b3`, column from `b1 b2` (42_sbox R170). -/
def strLookup (bits : List Bool) (grid : List (List (List Bool))) : List Bool :=
  (grid.getD (strPair (bits.getD 0 false) (bits.getD 3 false)) []).getD
    (strPair (bits.getD 1 false) (bits.getD 2 false)) []

/-- The grid of 2-character strings an S-box register holds (10_state R57). -/
def gridOf (S : BitVec 32) : List (List (List Bool)) :=
  (List.range 4).map fun r => (List.range 4).map fun c => stringOf (sboxEntry S r c)

/-- `swap(x)` is `x[4:] + x[:4]` (45_cipher_engine R217). -/
def strSwap (x : List Bool) : List Bool := x.drop 4 ++ x.take 4

/-- The key schedule over strings (43_key_scheduler R185). -/
def strKeySchedule (key : List Bool) (P10 P8 : List Nat) : List Bool × List Bool :=
  let p10 := strApply key P10
  let left1 := strShift (p10.take 5) 1
  let right1 := strShift (p10.drop 5) 1
  let left2 := strShift left1 2
  let right2 := strShift right1 2
  (strApply (left1 ++ right1) P8, strApply (left2 ++ right2) P8)

/-- The Feistel round over strings, the nine steps (44_feistel_round R200). -/
def strRound (block subkey : List Bool) (EP P4 : List Nat) (S0 S1 : List (List (List Bool))) : List Bool :=
  let left4 := block.take 4
  let right4 := block.drop 4
  let mixed := strXor (strApply right4 EP) subkey
  let combined := strLookup (mixed.take 4) S0 ++ strLookup (mixed.drop 4) S1
  strXor (strApply combined P4) left4 ++ right4

/-- The two-round pipeline over strings, `first` and `second` the subkeys in the order of use and
`inv` the inverse of IP (45_cipher_engine R219). -/
def strCipher (x : Inputs) (inv : List Nat) (block first second : List Bool) : List Bool :=
  let round := fun b k => strRound b k x.tableEp x.tableP4 (gridOf x.s0) (gridOf x.s1)
  strApply (round (strSwap (round (strApply block x.tableIp) first)) second) inv

end Sys2Proof.Machine
end

