-- ==== Sys2Proof/Safety.lean ====
section
/-! DEFINITION. The terms in which claims speak of a run: what happens in a cycle, which error a
command meets first, what a completion leaves, and the invariant of the reachable states. -/

namespace Sys2Proof.Machine

/-- Reset is asserted in this cycle. -/
def State.resetsNow (s : State) : Bool :=
  decide (s.event = .reset)

/-- The register a 32-bit aligned host write of this cycle reaches, and the value
(20_memory R72 to R74). -/
def State.writesNow (s : State) : Option (Reg × Word) :=
  match s.event with
  | .access (.write a width v) =>
    match windowOffset a with
    | some o => (target o width).map fun r => (r, v)
    | none => none
  | _ => none

/-- The command word accepted in this cycle (70_reset_and_hazards R296). -/
def State.acceptsNow (s : State) : Option Word :=
  match s.writesNow with
  | some (.cmd, v) => if s.status.busy then none else some v
  | _ => none

/-- A write of this cycle is discarded because the engine is busy (70_reset_and_hazards R298). -/
def State.discardsNow (s : State) : Bool :=
  match s.writesNow with
  | some (r, _) => s.status.busy && (decide (r.access = .input) || decide (r.access = .issue))
  | none => false

/-- A host write of this cycle to STATUS has a 1 in bit `k` (10_state R35). -/
def State.clearsNow (s : State) (k : Nat) : Bool :=
  match s.writesNow with
  | some (.status, v) => v.getLsbD k
  | _ => false

/-- The input-register write performed in this cycle (20_memory R77). -/
def State.inputWriteNow (s : State) : Option (Reg × Word) :=
  match s.writesNow with
  | some (r, v) => if r.access = .input ∧ s.status.busy = false then some (r, v) else none
  | none => none

/-- The accepted command completes in this cycle, if the cycle is neither a reset nor a stop
(70_reset_and_hazards R297). -/
def State.completesNow (s : State) : Bool :=
  s.status.busy && decide (s.count ≤ 1) && !s.resetsNow

/-- The tables a command checks, in order; PERM's and those of the others (60_exceptions R266). -/
def checkedTables : Instr → List PermTable
  | .keysched => [.p10, .p8]
  | .encrypt => [.p10, .p8, .ip, .ep, .p4]
  | .decrypt => [.p10, .p8, .ip, .ep, .p4]
  | .ipinv => [.ip]
  | .round => [.ep, .p4]
  | .nop => []
  | .swap => []
  | .perm _ _ => []
  | .rotl _ _ => []
  | .xor _ _ => []
  | .sbox _ => []

/-- Every entry of a table lies in [1, n] (45_cipher_engine R218). -/
def entriesWithin (n : Nat) (T : List Nat) : Prop :=
  ∀ t ∈ T, 1 ≤ t ∧ t ≤ n

/-- The conditions ENCRYPT and DECRYPT put on the tables (45_cipher_engine R218, R219). -/
def Inputs.tablesLegal (x : Inputs) : Prop :=
  entriesWithin 10 x.tableP10 ∧ entriesWithin 10 x.tableP8 ∧
  (entriesWithin 8 x.tableIp ∧ x.tableIp.Nodup) ∧
  entriesWithin 4 x.tableEp ∧ (entriesWithin 4 x.tableP4 ∧ x.tableP4.Nodup)

/-- `inv` is the table IP_INV of IP: eight entries with `inv[IP[i]-1] = i+1` (45_cipher_engine R215). -/
def Inputs.inverseIs (x : Inputs) (inv : List Nat) : Prop :=
  inv.length = 8 ∧ ∀ i < 8, inv[x.tableIp.getD i 0 - 1]? = some (i + 1)

/-- ConfigurationError for the first of the tables that breaks its condition (45_cipher_engine R218). -/
def Inputs.firstBadTable (x : Inputs) (ts : List PermTable) : Option CmdError :=
  (ts.find? fun t => !x.tableOk t).map .configuration

/-- The error of PERM's checks (40_permuter R135): the range of the selected table against the input
width; for IP_INV, first IP itself, then the width, since the derived entries are 1 to 8. -/
def Inputs.permError (x : Inputs) (table : PermTable) (lenA : Nat) : Option CmdError :=
  match table with
  | .ipInv =>
    if x.tableOk .ip then
      if lenA < 8 then some (.configuration .ipInv) else none
    else some (.configuration .ip)
  | .p10 => if inRange lenA x.tableP10 then none else some (.configuration .p10)
  | .p8 => if inRange lenA x.tableP8 then none else some (.configuration .p8)
  | .ip => if inRange lenA x.tableIp then none else some (.configuration .ip)
  | .ep => if inRange lenA x.tableEp then none else some (.configuration .ep)
  | .p4 => if inRange lenA x.tableP4 then none else some (.configuration .p4)

/-- The error of the first check of a command that fails, in the order of 60_exceptions R266; for PERM
as 40_permuter R135 says. -/
def firstError (i : Instr) (x : Inputs) : Option CmdError :=
  match i with
  | .nop => none
  | .keysched => x.firstBadTable (checkedTables .keysched)
  | .encrypt => x.firstBadTable (checkedTables .encrypt)
  | .decrypt => x.firstBadTable (checkedTables .decrypt)
  | .ipinv => x.firstBadTable (checkedTables .ipinv)
  | .round => x.firstBadTable (checkedTables .round)
  | .swap => none
  | .perm table lenA => x.permError table lenA
  | .rotl lenA n => if n > lenA then some .domain else none
  | .xor lenA lenB => if lenA ≠ lenB then some .lengthMismatch else none
  | .sbox _ => none

/-- The codes ECODE and ERRTAB take for an error (60_exceptions R260, 10_state R41). -/
def CmdError.codes : CmdError → Nat × Nat
  | .configuration .p10 => (1, 1)
  | .configuration .p8 => (1, 2)
  | .configuration .ip => (1, 3)
  | .configuration .ep => (1, 4)
  | .configuration .p4 => (1, 5)
  | .configuration .ipInv => (1, 6)
  | .lengthMismatch => (2, 0)
  | .domain => (3, 0)
  | .illegalCommand => (4, 0)

/-- The width of the result a command writes to RES; none for a command that does not write RES
(10_state R42). -/
def resultWidth : Instr → Option Nat
  | .nop => none
  | .keysched => none
  | .encrypt => none
  | .decrypt => none
  | .ipinv => none
  | .round => some 8
  | .swap => some 8
  | .perm .p10 _ => some 10
  | .perm .p4 _ => some 4
  | .perm .p8 _ => some 8
  | .perm .ip _ => some 8
  | .perm .ep _ => some 8
  | .perm .ipInv _ => some 8
  | .rotl lenA _ => some lenA
  | .xor lenA _ => some lenA
  | .sbox _ => some 2

/-- The error the word in CMD ends with, IllegalCommand first (60_exceptions R266); none for success. -/
def State.pendingError (s : State) : Option CmdError :=
  match decode s.cmd with
  | .ok i => firstError i s.inputs
  | .error _ => some .illegalCommand

/-- `s` after a successful completion that leaves the output registers at `o` and RESLEN at `reslen`:
nothing else but STATUS changes (60_exceptions R268). -/
def State.succeeded (s : State) (o : Outputs) (reslen : BitVec 4) : State :=
  { s with
    outputs := o
    status :=
      { s.status with ecode := 0, errtab := 0, reslen := reslen, done := true, busy := false } }

/-- `s` after an error completion with the given codes: only STATUS changes (60_exceptions R267). -/
def State.failed (s : State) (ecode : BitVec 3) (errtab : BitVec 4) : State :=
  { s with
    status :=
      { s.status with ecode := ecode, errtab := errtab, err := true, done := true, busy := false } }

/-- The bits of a register that exist (10_state R31, R64). -/
def Reg.mask : Reg → Word
  | .id => 0xFFFFFFFF
  | .ctrl => 0x00000001
  | .cmd => 0xFFFFFFFF
  | .status => 0x0000FF7F
  | .key => 0x000003FF
  | .din => 0x000000FF
  | .dout => 0x000000FF
  | .k1 => 0x000000FF
  | .k2 => 0x000000FF
  | .ipinv => 0xFFFFFFFF
  | .opa => 0x000003FF
  | .opb => 0x000003FF
  | .res => 0x000003FF
  | .p10a => 0xFFFFFFFF
  | .p10b => 0x000000FF
  | .p8 => 0xFFFFFFFF
  | .ip => 0xFFFFFFFF
  | .ep => 0xFFFFFFFF
  | .p4 => 0x0000FFFF
  | .s0 => 0xFFFFFFFF
  | .s1 => 0xFFFFFFFF

/-- The register map after reset: offset and value (10_state R31). -/
def resetMap : List (Nat × Word) :=
  [(0x00, 0x53444553), (0x04, 0), (0x08, 0), (0x0C, 0), (0x10, 0), (0x14, 0), (0x18, 0), (0x1C, 0),
    (0x20, 0), (0x24, 0), (0x28, 0), (0x2C, 0), (0x30, 0)] ++
  [(0x34, 0x91A47253), (0x38, 0x68), (0x3C, 0x9A584736), (0x40, 0x75841362), (0x44, 0x14323214),
    (0x48, 0x1342), (0x4C, 0xB7D81BB1), (0x50, 0xC613D2E4)]

/-- A list of the eight numbers 1 to 8, each once. -/
def isPermutation8 (T : List Nat) : Bool :=
  decide (T.length = 8) && inRange 8 T && noRepeats T

/-- What every reachable state has: the hidden count runs exactly while busy, DONE is off while busy,
ECODE and ERRTAB hold codes that exist and ERRTAB a table exactly for a ConfigurationError, RES is no
wider than RESLEN says, and IPINV is unwritten or a permutation table (10_state R36 to R42, R48, R51,
R61; 93_implementation_defined P9, P11). -/
def State.Inv (s : State) : Prop :=
  (s.status.busy = true ↔ 0 < s.count) ∧
  (s.status.busy = true → s.status.done = false) ∧
  s.status.ecode.toNat ≤ 4 ∧
  s.status.errtab.toNat ≤ 6 ∧
  (s.status.ecode = 1 ↔ s.status.errtab ≠ 0) ∧
  s.status.reslen.toNat ≤ 10 ∧
  s.outputs.res.toNat < 2 ^ s.status.reslen.toNat ∧
  (s.outputs.ipinv = 0 ∨ isPermutation8 (nibbles 8 s.outputs.ipinv) = true)

end Sys2Proof.Machine
end

