-- ==== Sys2Proof/Certificates/Slice0/Obligations.lean ====
section
/-! DEFINITION. The statements for the provers. Each docstring names the rule or the section of spec/
it formalises. -/

open Sys2Proof Sys2Proof.Machine

/-! ## Encoding -/

/-- 30_encoding sections 1 and 2: the decoder reads back every command from its word. -/
def Obligations.DecodeReadsBackEveryEncodedCommand : Prop :=
  ∀ i : Instr, i.wellFormed = true → decode (encode i) = .ok i

/-- R106: a word is the word of exactly one command, or illegal and the word of none. -/
def Obligations.EveryWordIsOneCommandOrIllegal : Prop :=
  ∀ w : Word,
    (∃ i : Instr, decode w = .ok i ∧ i.wellFormed = true ∧ encode i = w ∧
      ∀ j : Instr, j.wellFormed = true → encode j = w → j = i) ∨
    (∃ r : IllegalWord, decode w = .error r ∧ ∀ j : Instr, j.wellFormed = true → encode j ≠ w)

/-- 30_encoding section 2 (the list of R107), in the word's numeral. -/
def Obligations.IllegalWordsAreTheListedOnes : Prop :=
  ∀ w : Word, ∀ op sel la lb n rsv : Nat,
    w.toNat = op + 16 * sel + 256 * la + 4096 * lb + 65536 * n + 1048576 * rsv →
    op < 16 → sel < 16 → la < 16 → lb < 16 → n < 16 →
    ((∃ r : IllegalWord, decode w = .error r) ↔
      11 ≤ op ∨ rsv ≠ 0 ∨
      (op ≤ 6 ∧ (sel ≠ 0 ∨ la ≠ 0 ∨ lb ≠ 0 ∨ n ≠ 0)) ∨
      (op = 7 ∧ (lb ≠ 0 ∨ n ≠ 0 ∨ 5 < sel ∨ la = 0 ∨ 10 < la)) ∨
      (op = 8 ∧ (sel ≠ 0 ∨ lb ≠ 0 ∨ la = 0 ∨ 10 < la)) ∨
      (op = 9 ∧ (sel ≠ 0 ∨ n ≠ 0 ∨ la = 0 ∨ 10 < la ∨ lb = 0 ∨ 10 < lb)) ∨
      (op = 10 ∧ (la ≠ 0 ∨ lb ≠ 0 ∨ n ≠ 0 ∨ 1 < sel)))

/-- 95_test_vectors section 2.11: words written out there decode to the commands they stand for. -/
def Obligations.ListedWordsDecodeToTheirCommands : Prop :=
  decode 0x00000000 = .ok .nop ∧ decode 0x00000001 = .ok .keysched ∧
  decode 0x00000002 = .ok .encrypt ∧ decode 0x00000003 = .ok .decrypt ∧
  decode 0x00000004 = .ok .ipinv ∧ decode 0x00000005 = .ok .round ∧
  decode 0x00000006 = .ok .swap ∧ decode 0x00000857 = .ok (.perm .ipInv 8) ∧
  decode 0x000F0A08 = .ok (.rotl 10 15) ∧ decode 0x0000A909 = .ok (.xor 9 10) ∧
  decode 0x0000001A = .ok (.sbox .s1)

/-! ## The units -/

/-- R130, R131, R132: the permutation unit bit by bit, on strings, its width, and its range check. -/
def Obligations.PermuteGathersNamedPositions : Prop :=
  ∀ (n : Nat) (tab : PermTable) (v : BitVec n) (T : List Nat),
    (entriesWithin n T →
      ∃ out : BitVec T.length, permute tab v T = .ok out ∧
        (∀ i < T.length, out.getLsbD (T.length - 1 - i) = v.getLsbD (n - T.getD i 0)) ∧
        (stringOf out).length = T.length ∧
        stringOf out = strApply (stringOf v) T) ∧
    (¬ entriesWithin n T → permute tab v T = .error (.configuration tab))

/-- R150: rotation moves the first `k` characters to the end, and fails for `k > L`. -/
def Obligations.RotationMovesLeadingCharacters : Prop :=
  ∀ (L k : Nat) (v : BitVec L),
    (k ≤ L → ∃ out : BitVec L, rotL v k = .ok out ∧ stringOf out = strShift (stringOf v) k) ∧
    (L < k → rotL v k = .error .domain)

/-- R151, R153: rotation by 0 and by the width, and composition. -/
def Obligations.RotationsCompose : Prop :=
  ∀ (L : Nat) (v : BitVec L),
    rotL v 0 = .ok v ∧ rotL v L = .ok v ∧
    ∀ a b : Nat, a ≤ L → b ≤ L → ∃ u : BitVec L, rotL v a = .ok u ∧ rotL u b = rotL v ((a + b) % L)

/-- R152, R154: the exclusive OR unit and its laws. -/
def Obligations.XorUnitLaws : Prop :=
  (∀ (la lb : Nat) (a : BitVec la) (b : BitVec lb), la ≠ lb → xorBits a b = .error .lengthMismatch) ∧
  ∀ (l : Nat) (a b : BitVec l),
    (∃ c : BitVec l, xorBits a b = .ok c ∧ (∀ i < l, c.getLsbD i = (a.getLsbD i != b.getLsbD i)) ∧
      stringOf c = strXor (stringOf a) (stringOf b) ∧ xorBits c b = .ok a) ∧
    xorBits a a = .ok 0 ∧ xorBits a (0 : BitVec l) = .ok a

/-- R201: one more round with the same subkey undoes a round; the right half passes through. -/
def Obligations.RoundIsItsOwnInverse : Prop :=
  ∀ (b c sk : BitVec 8) (t : RoundTables), feistelRound b sk t = .ok c →
    lowHalf c = lowHalf b ∧
    (∃ f : BitVec 4, roundF (lowHalf b) sk t = .ok f ∧ highHalf c = highHalf b ^^^ f) ∧
    feistelRound c sk t = .ok b

/-- R215, R216: the derived inverse of IP, a permutation again; a bad IP raises ConfigurationError. -/
def Obligations.IpInverseInvertsIp : Prop :=
  (∀ x : Inputs, entriesWithin 8 x.tableIp → x.tableIp.Nodup →
    ∃ inv : List Nat, ipInverse x = .ok inv ∧ x.inverseIs inv ∧ entriesWithin 8 inv ∧ inv.Nodup) ∧
  (∀ x : Inputs, ¬ (entriesWithin 8 x.tableIp ∧ x.tableIp.Nodup) →
    ipInverse x = .error (.configuration .ip) ∧ (CmdError.configuration .ip).errtab = 3) ∧
  ipInverse Inputs.reset = .ok [4, 1, 3, 5, 7, 2, 8, 6] ∧
  packTable [4, 1, 3, 5, 7, 2, 8, 6] = 0x68275314

/-- 45_cipher_engine section 1 (the table of R218): when CheckTable passes a table. -/
def Obligations.TableChecksAreTheListedConditions : Prop :=
  ∀ x : Inputs,
    (x.tableOk .p10 = true ↔ entriesWithin 10 x.tableP10) ∧
    (x.tableOk .p8 = true ↔ entriesWithin 10 x.tableP8) ∧
    (x.tableOk .ip = true ↔ entriesWithin 8 x.tableIp ∧ x.tableIp.Nodup) ∧
    (x.tableOk .ep = true ↔ entriesWithin 4 x.tableEp) ∧
    (x.tableOk .p4 = true ↔ entriesWithin 4 x.tableP4 ∧ x.tableP4.Nodup)

/-- 10_state section 5: the entries of a packed table, nibble by nibble, and of an S-box, two bits each. -/
def Obligations.TableEntriesAreRegisterFields : Prop :=
  ∀ x : Inputs,
    x.tableP10.length = 10 ∧ x.tableP8.length = 8 ∧ x.tableIp.length = 8 ∧ x.tableEp.length = 8 ∧
    x.tableP4.length = 4 ∧
    (∀ j < 8, x.tableP10.getD j 0 = x.p10a.toNat / 16 ^ j % 16 ∧
      x.tableP8.getD j 0 = x.p8.toNat / 16 ^ j % 16 ∧ x.tableIp.getD j 0 = x.ip.toNat / 16 ^ j % 16 ∧
      x.tableEp.getD j 0 = x.ep.toNat / 16 ^ j % 16) ∧
    (∀ j < 2, x.tableP10.getD (8 + j) 0 = x.p10b.toNat / 16 ^ j % 16) ∧
    (∀ j < 4, x.tableP4.getD j 0 = x.p4.toNat / 16 ^ j % 16) ∧
    (∀ r < 4, ∀ c < 4, (sboxEntry x.s0 r c).toNat = x.s0.toNat / 4 ^ (4 * r + c) % 4 ∧
      (sboxEntry x.s1 r c).toNat = x.s1.toNat / 4 ^ (4 * r + c) % 4)

/-! ## The commands: where each completes and with what -/

/-- 45_cipher_engine section 1 (R227), NOP: nothing but the successful completion. -/
def Obligations.NopOnlyCompletes : Prop :=
  ∀ s : State, exec .nop s = .next (s.succeeded s.outputs s.status.reslen)

/-- 45_cipher_engine section 1 (R226), SWAP: RES takes OPA[7:0] with its halves exchanged. -/
def Obligations.SwapExchangesHalves : Prop :=
  ∀ s : State, ∃ b : BitVec 8,
    exec .swap s = .next (s.succeeded { s.outputs with res := b.setWidth 10 } 8) ∧
    stringOf b = strSwap (stringOf (s.inputs.opa.setWidth 8))

/-- 42_sbox section 2: RES takes the entry the outer and inner bits of OPA[3:0] select. -/
def Obligations.SboxLooksUpSelectedEntry : Prop :=
  ∀ (s : State) (row col : Nat),
    row = 2 * (s.inputs.opa.getLsbD 3).toNat + (s.inputs.opa.getLsbD 0).toNat →
    col = 2 * (s.inputs.opa.getLsbD 2).toNat + (s.inputs.opa.getLsbD 1).toNat →
    row < 4 ∧ col < 4 ∧
    ∃ u v : BitVec 2,
      exec (.sbox .s0) s = .next (s.succeeded { s.outputs with res := u.setWidth 10 } 2) ∧
      exec (.sbox .s1) s = .next (s.succeeded { s.outputs with res := v.setWidth 10 } 2) ∧
      u.toNat = s.inputs.s0.toNat / 4 ^ (4 * row + col) % 4 ∧
      v.toNat = s.inputs.s1.toNat / 4 ^ (4 * row + col) % 4

/-- 41_bitops section 2, ROTL: the rotated operand, or DomainError for N > LENA. -/
def Obligations.RotlRotatesOrRaisesDomainError : Prop :=
  ∀ (s : State) (lenA n : Nat), 1 ≤ lenA → lenA ≤ 10 →
    (n ≤ lenA → ∃ out : BitVec lenA,
      exec (.rotl lenA n) s =
        .next (s.succeeded { s.outputs with res := out.setWidth 10 } (BitVec.ofNat 4 lenA)) ∧
      stringOf out = strShift (stringOf (s.inputs.opa.setWidth lenA)) n) ∧
    (lenA < n → exec (.rotl lenA n) s = .next (s.failed 3 0))

/-- 41_bitops section 2, XOR: the exclusive OR, or LengthMismatchError for LENA ≠ LENB. -/
def Obligations.XorCombinesOrRaisesLengthMismatch : Prop :=
  ∀ (s : State) (lenA lenB : Nat), 1 ≤ lenA → lenA ≤ 10 → 1 ≤ lenB → lenB ≤ 10 →
    (lenA = lenB → ∃ out : BitVec 10,
      exec (.xor lenA lenB) s =
        .next (s.succeeded { s.outputs with res := out } (BitVec.ofNat 4 lenA)) ∧
      ∀ j < 10, out.getLsbD j =
        (decide (j < lenA) && (s.inputs.opa.getLsbD j != s.inputs.opb.getLsbD j))) ∧
    (lenA ≠ lenB → exec (.xor lenA lenB) s = .next (s.failed 2 0))

/-- 40_permuter section 2, PERM with SEL 0 to 4: the permuted operand, or ConfigurationError naming
the table. -/
def Obligations.PermAppliesARegisterTable : Prop :=
  ∀ (s : State) (lenA : Nat), 1 ≤ lenA → lenA ≤ 10 →
    ∀ p ∈ [(PermTable.p10, s.inputs.tableP10, 1), (.p8, s.inputs.tableP8, 2), (.ip, s.inputs.tableIp, 3),
      (.ep, s.inputs.tableEp, 4), (.p4, s.inputs.tableP4, 5)],
      (entriesWithin lenA p.2.1 → ∃ out : BitVec p.2.1.length,
        exec (.perm p.1 lenA) s =
          .next (s.succeeded { s.outputs with res := out.setWidth 10 } (BitVec.ofNat 4 p.2.1.length)) ∧
        stringOf out = strApply (stringOf (s.inputs.opa.setWidth lenA)) p.2.1) ∧
      (¬ entriesWithin lenA p.2.1 → exec (.perm p.1 lenA) s = .next (s.failed 1 (BitVec.ofNat 4 p.2.2)))

/-- 40_permuter section 2, PERM with SEL 5: the operand through the inverse of IP, derived on the spot;
IP is checked first, then the width. -/
def Obligations.PermAppliesTheDerivedInverse : Prop :=
  ∀ (s : State) (lenA : Nat), 1 ≤ lenA → lenA ≤ 10 →
    (entriesWithin 8 s.inputs.tableIp ∧ s.inputs.tableIp.Nodup → 8 ≤ lenA → ∃ out : BitVec 8,
      exec (.perm .ipInv lenA) s = .next (s.succeeded { s.outputs with res := out.setWidth 10 } 8) ∧
      ∀ i < 8, (stringOf out)[s.inputs.tableIp.getD i 0 - 1]? =
        (stringOf (s.inputs.opa.setWidth lenA))[i]?) ∧
    (¬ (entriesWithin 8 s.inputs.tableIp ∧ s.inputs.tableIp.Nodup) →
      exec (.perm .ipInv lenA) s = .next (s.failed 1 3)) ∧
    (entriesWithin 8 s.inputs.tableIp ∧ s.inputs.tableIp.Nodup → lenA < 8 →
      exec (.perm .ipInv lenA) s = .next (s.failed 1 6))

/-- 43_key_scheduler sections 1 and 2: K1 and K2 are the source's key schedule of KEY. -/
def Obligations.KeyschedIsTheStringSchedule : Prop :=
  ∀ s : State, entriesWithin 10 s.inputs.tableP10 → entriesWithin 10 s.inputs.tableP8 →
    ∃ k1 k2 : BitVec 8,
      exec .keysched s = .next (s.succeeded { s.outputs with k1 := k1, k2 := k2 } s.status.reslen) ∧
      (stringOf k1, stringOf k2) =
        strKeySchedule (stringOf s.inputs.key) s.inputs.tableP10 s.inputs.tableP8

/-- 43_key_scheduler section 2: a constant key gives constant subkeys under every legal P10 and P8. -/
def Obligations.ConstantKeysGiveConstantSubkeys : Prop :=
  ∀ s : State, entriesWithin 10 s.inputs.tableP10 → entriesWithin 10 s.inputs.tableP8 →
    (s.inputs.key = 0 → exec .keysched s =
      .next (s.succeeded { s.outputs with k1 := 0, k2 := 0 } s.status.reslen)) ∧
    (s.inputs.key = 0x3FF → exec .keysched s =
      .next (s.succeeded { s.outputs with k1 := 0xFF, k2 := 0xFF } s.status.reslen))

/-- 45_cipher_engine section 1 (R225), IPINV: the packed inverse of IP, or ConfigurationError. -/
def Obligations.IpinvPacksTheInverse : Prop :=
  ∀ s : State,
    (entriesWithin 8 s.inputs.tableIp ∧ s.inputs.tableIp.Nodup → ∃ r : BitVec 32,
      exec .ipinv s = .next (s.succeeded { s.outputs with ipinv := r } s.status.reslen) ∧
      s.inputs.inverseIs (nibbles 8 r)) ∧
    (¬ (entriesWithin 8 s.inputs.tableIp ∧ s.inputs.tableIp.Nodup) → exec .ipinv s = .next (s.failed 1 3))

/-- 44_feistel_round sections 1 and 2: ROUND is the source's nine steps, or ConfigurationError for EP
and then for P4. -/
def Obligations.RoundIsTheStringRound : Prop :=
  ∀ s : State,
    (entriesWithin 4 s.inputs.tableEp → entriesWithin 4 s.inputs.tableP4 ∧ s.inputs.tableP4.Nodup →
      ∃ b : BitVec 8,
        exec .round s = .next (s.succeeded { s.outputs with res := b.setWidth 10 } 8) ∧
        stringOf b = strRound (stringOf (s.inputs.opa.setWidth 8)) (stringOf (s.inputs.opb.setWidth 8))
          s.inputs.tableEp s.inputs.tableP4 (gridOf s.inputs.s0) (gridOf s.inputs.s1)) ∧
    (¬ entriesWithin 4 s.inputs.tableEp → exec .round s = .next (s.failed 1 4)) ∧
    (entriesWithin 4 s.inputs.tableEp → ¬ (entriesWithin 4 s.inputs.tableP4 ∧ s.inputs.tableP4.Nodup) →
      exec .round s = .next (s.failed 1 5))

/-- 45_cipher_engine section 1 (R219, R223), ENCRYPT: the source's pipeline over strings, the subkeys in the
order K1, K2. -/
def Obligations.EncryptIsTheStringCipher : Prop :=
  ∀ s : State, s.inputs.tablesLegal → ∃ (ct k1 k2 : BitVec 8) (r : BitVec 32),
    exec .encrypt s = .next (s.succeeded
      { dout := ct, k1 := k1, k2 := k2, ipinv := r, res := s.outputs.res } s.status.reslen) ∧
    (stringOf k1, stringOf k2) =
      strKeySchedule (stringOf s.inputs.key) s.inputs.tableP10 s.inputs.tableP8 ∧
    s.inputs.inverseIs (nibbles 8 r) ∧
    stringOf ct = strCipher s.inputs (nibbles 8 r) (stringOf s.inputs.din) (stringOf k1) (stringOf k2)

/-- 45_cipher_engine section 1 (R221, R224), DECRYPT: the same pipeline with the subkeys in the order K2, K1,
which keep their names. -/
def Obligations.DecryptIsTheReversedStringCipher : Prop :=
  ∀ s : State, s.inputs.tablesLegal → ∃ (pt k1 k2 : BitVec 8) (r : BitVec 32),
    exec .decrypt s = .next (s.succeeded
      { dout := pt, k1 := k1, k2 := k2, ipinv := r, res := s.outputs.res } s.status.reslen) ∧
    (stringOf k1, stringOf k2) =
      strKeySchedule (stringOf s.inputs.key) s.inputs.tableP10 s.inputs.tableP8 ∧
    s.inputs.inverseIs (nibbles 8 r) ∧
    stringOf pt = strCipher s.inputs (nibbles 8 r) (stringOf s.inputs.din) (stringOf k2) (stringOf k1)

/-- R222: DECRYPT of what ENCRYPT wrote gives the block back, and ENCRYPT of what DECRYPT wrote, for
every key, block and legal tables. -/
def Obligations.EncryptAndDecryptUndoEachOther : Prop :=
  ∀ s : State, s.inputs.tablesLegal →
    (∃ t u : State, exec .encrypt s = .next t ∧
      exec .decrypt { t with inputs := { t.inputs with din := t.outputs.dout } } = .next u ∧
      u.outputs.dout = s.inputs.din) ∧
    (∃ t u : State, exec .decrypt s = .next t ∧
      exec .encrypt { t with inputs := { t.inputs with din := t.outputs.dout } } = .next u ∧
      u.outputs.dout = s.inputs.din)

/-! ## Errors, frames, history -/

/-- R266, R267: the first check that fails, the decode before all, and nothing but it, decides the error;
the error completion changes STATUS alone; a command whose checks pass completes. -/
def Obligations.CommandsReportTheFirstFailingCheck : Prop :=
  ∀ (i : Instr) (s : State),
    (∀ e : CmdError, firstError i s.inputs = some e →
      exec i s = .next (s.failed (BitVec.ofNat 3 e.codes.1) (BitVec.ofNat 4 e.codes.2))) ∧
    (firstError i s.inputs = none →
      ∃ (o : Outputs) (l : BitVec 4), exec i s = .next (s.succeeded o l)) ∧
    (decode s.cmd = .ok i → completionStep s = exec i s) ∧
    ∀ r : IllegalWord, decode s.cmd = .error r → completionStep s = .next (s.failed 4 0)

/-- 10_state sections 4 and 6, 60_exceptions section 3: the frame of every command. -/
def Obligations.CommandsWriteOnlyTheirOutputs : Prop :=
  ∀ (i : Instr) (s t : State), exec i s = .next t →
    t.inputs = s.inputs ∧ t.cmd = s.cmd ∧ t.irqen = s.irqen ∧ t.status.bviol = s.status.bviol ∧
    t.count = s.count ∧ t.inbox = s.inbox ∧ t.resp = s.resp ∧
    (t.status.ecode = 0 → t.status.err = s.status.err) ∧
    (t.status.ecode ≠ 0 → t.outputs = s.outputs ∧ t.status.reslen = s.status.reslen) ∧
    (resultWidth i = none → t.outputs.res = s.outputs.res ∧ t.status.reslen = s.status.reslen) ∧
    (i ≠ .encrypt → i ≠ .decrypt → t.outputs.dout = s.outputs.dout) ∧
    (i ≠ .keysched → i ≠ .encrypt → i ≠ .decrypt →
      t.outputs.k1 = s.outputs.k1 ∧ t.outputs.k2 = s.outputs.k2) ∧
    (i ≠ .ipinv → i ≠ .encrypt → i ≠ .decrypt → t.outputs.ipinv = s.outputs.ipinv)

/-- R59: no command depends on an output register, STATUS or anything else but its word and the input
registers: what it writes is the same, and what it leaves it leaves. -/
def Obligations.CommandsHaveNoHistory : Prop :=
  ∀ (i : Instr) (s s' : State), s.inputs = s'.inputs →
    ∃ t t' : State, exec i s = .next t ∧ exec i s' = .next t' ∧
      t.status.ecode = t'.status.ecode ∧ t.status.errtab = t'.status.errtab ∧
      ((t.outputs.dout = t'.outputs.dout) ∨
        (t.outputs.dout = s.outputs.dout ∧ t'.outputs.dout = s'.outputs.dout)) ∧
      ((t.outputs.k1 = t'.outputs.k1 ∧ t.outputs.k2 = t'.outputs.k2) ∨
        (t.outputs.k1 = s.outputs.k1 ∧ t'.outputs.k1 = s'.outputs.k1 ∧
          t.outputs.k2 = s.outputs.k2 ∧ t'.outputs.k2 = s'.outputs.k2)) ∧
      ((t.outputs.ipinv = t'.outputs.ipinv) ∨
        (t.outputs.ipinv = s.outputs.ipinv ∧ t'.outputs.ipinv = s'.outputs.ipinv)) ∧
      ((t.outputs.res = t'.outputs.res ∧ t.status.reslen = t'.status.reslen) ∨
        (t.outputs.res = s.outputs.res ∧ t'.outputs.res = s'.outputs.res ∧
          t.status.reslen = s.status.reslen ∧ t'.status.reslen = s'.status.reslen))

/-! ## The bus -/

/-- R72, R73, R74, R75: an access of another width, misaligned, at a reserved offset, or a write to a
read-only register gets ERROR and data 0, and changes no state. -/
def Obligations.BadAccessesChangeNothing : Prop :=
  ∀ (s : State) (addr o width : Nat) (v : Word),
    (width ≠ 4 ∨ o % 4 ≠ 0 ∨ 0x54 ≤ o →
      busAccess s o (.read addr width) = (⟨.error, 0⟩, s) ∧
      busAccess s o (.write addr width v) = (⟨.error, 0⟩, s)) ∧
    (o ∈ [0x00, 0x18, 0x1C, 0x20, 0x24, 0x30] →
      busAccess s o (.write addr width v) = (⟨.error, 0⟩, s))

/-- R76, at the offsets and for the bits of 10_state R31: a legal read of every register gets OKAY and its
value, busy or not, bits that do not exist 0, and changes nothing; while a command runs the output
registers read as before it. The fields of the word STATUS reads as are in StatusWordLayout. -/
def Obligations.LegalReadsReturnTheRegister : Prop :=
  ∀ (s : State) (r : Reg) (addr : Nat),
    busAccess s r.offset (.read addr 4) = (⟨.okay, s.readReg r⟩, s) ∧
    s.readReg r &&& ~~~ r.mask = 0 ∧
    (∀ p ∈
      [(Reg.id, 0x00, (0x53444553 : Word)), (.ctrl, 0x04, (BitVec.ofBool s.irqen).setWidth 32),
        (.cmd, 0x08, s.cmd), (.status, 0x0C, s.status.word),
        (.key, 0x10, s.inputs.key.setWidth 32), (.din, 0x14, s.inputs.din.setWidth 32),
        (.dout, 0x18, s.outputs.dout.setWidth 32), (.k1, 0x1C, s.outputs.k1.setWidth 32),
        (.k2, 0x20, s.outputs.k2.setWidth 32), (.ipinv, 0x24, s.outputs.ipinv),
        (.opa, 0x28, s.inputs.opa.setWidth 32), (.opb, 0x2C, s.inputs.opb.setWidth 32)] ++
      [(.res, 0x30, s.outputs.res.setWidth 32), (.p10a, 0x34, s.inputs.p10a),
        (.p10b, 0x38, s.inputs.p10b.setWidth 32), (.p8, 0x3C, s.inputs.p8), (.ip, 0x40, s.inputs.ip),
        (.ep, 0x44, s.inputs.ep), (.p4, 0x48, s.inputs.p4.setWidth 32), (.s0, 0x4C, s.inputs.s0),
        (.s1, 0x50, s.inputs.s1)],
      p.1.offset = p.2.1 ∧ s.readReg p.1 = p.2.2 ∧
        busAccess s p.2.1 (.read addr 4) = (⟨.okay, p.2.2⟩, s)) ∧
    ∀ t : State, step s = .next t → s.status.busy = true → t.status.busy = true →
      ∀ q ∈ [Reg.dout, .k1, .k2, .ipinv, .res], t.readReg q = s.readReg q

/-- 20_memory section 2 and 10_state section 6: after a legal write to an input register the register
reads as the bits that exist of the value, and every other register reads as before. -/
def Obligations.InputWritesReadBack : Prop :=
  ∀ (s : State) (r : Reg) (addr : Nat) (v : Word), s.status.busy = false → r.access = .input →
    ∃ t : State, busAccess s r.offset (.write addr 4 v) = (⟨.okay, 0⟩, t) ∧
      t.readReg r = v &&& r.mask ∧
      (∀ q : Reg, q ≠ r → t.readReg q = s.readReg q) ∧
      t.count = s.count ∧ t.inbox = s.inbox ∧ t.resp = s.resp

/-- 10_state sections 2 and 3: what a write to CTRL and to STATUS does, busy or not; every other
register reads as before. -/
def Obligations.ControlWritesTakeEffectAlways : Prop :=
  ∀ (s : State) (addr : Nat) (v : Word),
    (∃ t : State, busAccess s 0x04 (.write addr 4 v) = (⟨.okay, 0⟩, t) ∧ t.readReg .ctrl = v &&& 1 ∧
      ∀ q : Reg, q ≠ .ctrl → t.readReg q = s.readReg q) ∧
    (∃ t : State, busAccess s 0x0C (.write addr 4 v) = (⟨.okay, 0⟩, t) ∧
      t.readReg .status = s.readReg .status &&& ~~~ (v &&& 0xE) ∧
      ∀ q : Reg, q ≠ .status → t.readReg q = s.readReg q)

/-- R298: while busy, a write to CMD, an input or a table register is discarded with ERROR and BVIOL;
a write to CTRL or STATUS and a read are as when idle. -/
def Obligations.BusyWritesAreDiscarded : Prop :=
  ∀ (s : State) (addr : Nat) (v : Word), s.status.busy = true →
    (∀ r ∈ [Reg.cmd, .key, .din, .opa, .opb, .p10a, .p10b, .p8, .ip, .ep, .p4, .s0, .s1],
      busAccess s r.offset (.write addr 4 v) =
        (⟨.error, 0⟩, { s with status := { s.status with bviol := true } })) ∧
    (busAccess s 0x04 (.write addr 4 v)).1 = ⟨.okay, 0⟩ ∧
    (busAccess s 0x04 (.write addr 4 v)).2 = { s with irqen := v.getLsbD 0 } ∧
    (busAccess s 0x0C (.write addr 4 v)).1 = ⟨.okay, 0⟩ ∧
    (busAccess s 0x0C (.write addr 4 v)).2 =
      { s with
        status :=
          { s.status with
            done := s.status.done && !v.getLsbD 1
            err := s.status.err && !v.getLsbD 2
            bviol := s.status.bviol && !v.getLsbD 3 } } ∧
    ∀ r : Reg, busAccess s r.offset (.read addr 4) = (⟨.okay, s.readReg r⟩, s)

/-- R296: acceptance of a command word. -/
def Obligations.IdleCmdWriteIsAccepted : Prop :=
  ∀ (s : State) (addr : Nat) (w : Word), s.status.busy = false →
    busAccess s 0x08 (.write addr 4 w) = (⟨.okay, 0⟩,
      { s with
        cmd := w
        status := { s.status with busy := true, done := false }
        count := Config.lat (match decode w with | .ok i => some i.opcode | .error _ => none) })

/-- 10_state section 3: where the fields of STATUS stand in the word a read returns. -/
def Obligations.StatusWordLayout : Prop :=
  ∀ s : State, ∃ w : Word, w = s.readReg .status ∧
    w.getLsbD 0 = s.status.busy ∧ w.getLsbD 1 = s.status.done ∧ w.getLsbD 2 = s.status.err ∧
    w.getLsbD 3 = s.status.bviol ∧ w.extractLsb' 4 3 = s.status.ecode ∧ w.getLsbD 7 = false ∧
    w.extractLsb' 8 4 = s.status.errtab ∧ w.extractLsb' 12 4 = s.status.reslen ∧
    w.extractLsb' 16 16 = 0

/-! ## The cycle -/

/-- 70_reset_and_hazards section 3: in the cycle the count reaches 0, a step is the meaning of the
command in CMD, after the host's access if there is one; the count is 0 and the event taken. The
order of the access and the completion is the model's reading of 10_state section 3 (log 3). -/
def Obligations.StepRunsTheAcceptedCommand : Prop :=
  ∀ (s : State) (i : Instr), decode s.cmd = .ok i → s.status.busy = true → s.count ≤ 1 →
    (s.event = .idle →
      step s = exec i { s with count := 0, inbox := s.inbox.tail, resp := none }) ∧
    (∀ (a : BusAccess) (o : Nat), s.event = .access a → windowOffset a.addr = some o →
      step s = exec i
        { (busAccess { s with inbox := s.inbox.tail, resp := none } o a).2 with
          count := 0
          resp := some (busAccess { s with inbox := s.inbox.tail, resp := none } o a).1 })

/-- 70_reset_and_hazards section 3, 30_encoding section 2: the word of any well-formed command, placed as
the accepted command, is run by the next step. How a word is placed is the model's own (log 7). -/
def Obligations.PlacedCommandRunsNext : Prop :=
  ∀ (s : State) (i : Instr), i.wellFormed = true →
    step (s.withFetchWord 32 (encode i).toNat) =
      exec i { s with
        cmd := encode i
        status := { s.status with busy := true, done := false }
        count := 0
        resp := none }

/-- 20_memory sections 2 and 5: in a cycle the engine is idle, or busy with more than one cycle left, a step
is the host's access alone, and the count. One access a cycle is the model's reading (log 1). -/
def Obligations.StepPerformsTheAccess : Prop :=
  ∀ (s : State) (a : BusAccess) (o : Nat), s.event = .access a → windowOffset a.addr = some o →
    (s.status.busy = false →
      step s = .next
        { (busAccess { s with inbox := s.inbox.tail, resp := none } o a).2 with
          resp := some (busAccess { s with inbox := s.inbox.tail, resp := none } o a).1 }) ∧
    (s.status.busy = true → 1 < s.count →
      step s = .next
        { (busAccess { s with inbox := s.inbox.tail, resp := none } o a).2 with
          count := s.count - 1
          resp := some (busAccess { s with inbox := s.inbox.tail, resp := none } o a).1 })

/-- 20_memory section 1: the window, and the one stop of the model: a step of the machine stops only for
an access outside the window (the stop is the model's choice: log 6). -/
def Obligations.StepStopsOnlyOutsideTheWindow : Prop :=
  ∀ s : State,
    (∃ t : State, step s = .next t) ∨
    (step s = .fault .outsideWindow ∧ ∃ a : BusAccess, s.event = .access a ∧
      (a.addr < Config.sdesBase ∨ Config.sdesBase + 0xFF < a.addr))

/-- R36: BUSY is set at acceptance, cleared at completion or by reset, and by nothing else. -/
def Obligations.BusyChangesOnlyByRule : Prop :=
  ∀ s t : State, step s = .next t →
    t.status.busy =
      if s.resetsNow then false
      else if s.acceptsNow.isSome then true
      else if s.completesNow then false
      else s.status.busy

/-- R37: DONE is set at every completion; cleared at acceptance, by a host write of 1, or by reset. -/
def Obligations.DoneChangesOnlyByRule : Prop :=
  ∀ s t : State, step s = .next t →
    t.status.done =
      if s.resetsNow then false
      else if s.completesNow then true
      else if s.acceptsNow.isSome then false
      else s.status.done && !s.clearsNow 1

/-- R38: ERR is set at a completion with an error and cleared only by a host write of 1 or reset. -/
def Obligations.ErrIsSticky : Prop :=
  ∀ s t : State, step s = .next t →
    t.status.err =
      if s.resetsNow then false
      else if s.completesNow && s.pendingError.isSome then true
      else s.status.err && !s.clearsNow 2

/-- R39: BVIOL is set by a discarded write and cleared only by a host write of 1 or reset. -/
def Obligations.BviolIsSticky : Prop :=
  ∀ s t : State, step s = .next t →
    t.status.bviol =
      if s.resetsNow then false
      else if s.discardsNow then true
      else s.status.bviol && !s.clearsNow 3

/-- R40, R41: ECODE and ERRTAB are written at every completion and only there. -/
def Obligations.CompletionWritesErrorCodes : Prop :=
  ∀ s t : State, step s = .next t →
    t.status.ecode.toNat =
      (if s.resetsNow then 0
      else if s.completesNow then (s.pendingError.map fun e => e.codes.1).getD 0
      else s.status.ecode.toNat) ∧
    t.status.errtab.toNat =
      (if s.resetsNow then 0
      else if s.completesNow then (s.pendingError.map fun e => e.codes.2).getD 0
      else s.status.errtab.toNat) ∧
    ∀ tab : PermTable, (CmdError.configuration tab).codes = (1, selOfPermTable tab + 1)

/-- R42: RESLEN is written only by a successful command that writes RES, with the width of the result. -/
def Obligations.ReslenIsTheResultWidth : Prop :=
  ∀ s t : State, step s = .next t →
    t.status.reslen.toNat =
      if s.resetsNow then 0
      else if s.completesNow && s.pendingError.isNone then
        match decode s.cmd with
        | .ok i => (resultWidth i).getD s.status.reslen.toNat
        | .error _ => s.status.reslen.toNat
      else s.status.reslen.toNat

/-- R60: only a host write and reset change an input register. -/
def Obligations.InputsChangeOnlyByTheHost : Prop :=
  ∀ s t : State, step s = .next t →
    t.inputs =
      if s.resetsNow then Inputs.reset
      else match s.inputWriteNow with
        | some (r, v) => s.inputs.write r v
        | none => s.inputs

/-- R34: CMD takes the whole word of a write while idle, which issues it, keeps it while busy, and reads
as it. -/
def Obligations.CmdHoldsTheLastAcceptedWord : Prop :=
  ∀ s t : State, step s = .next t →
    (t.readReg .cmd =
      if s.resetsNow then 0
      else match s.acceptsNow with
        | some w => w
        | none => s.readReg .cmd) ∧
    (s.acceptsNow.isSome = true → t.status.busy = true)

/-- 10_state section 2: CTRL changes only by a host write to it, at any time, or reset. -/
def Obligations.CtrlChangesOnlyByTheHost : Prop :=
  ∀ s t : State, step s = .next t →
    t.irqen =
      if s.resetsNow then false
      else match s.writesNow with
        | some (.ctrl, v) => v.getLsbD 0
        | _ => s.irqen

/-- 20_memory section 5: an output register changes only at a completion without an error, or at reset,
so a read while busy sees none of a command's results. -/
def Obligations.OutputsChangeOnlyAtCompletion : Prop :=
  ∀ s t : State, step s = .next t →
    (s.resetsNow = true → t.outputs = Outputs.reset) ∧
    (s.resetsNow = false → s.completesNow = false → t.outputs = s.outputs) ∧
    (s.completesNow = true → s.pendingError.isSome = true → t.outputs = s.outputs) ∧
    (s.status.busy = true → t.status.busy = true → t.outputs = s.outputs)

/-- 70_reset_and_hazards sections 1 and 3: the hidden count is set at acceptance and falls while busy. -/
def Obligations.CountFallsOncePerBusyCycle : Prop :=
  ∀ s t : State, step s = .next t →
    t.count =
      if s.resetsNow then 0
      else match s.acceptsNow with
        | some w => Config.lat (latencyClass w)
        | none => if s.status.busy then s.count - 1 else s.count

/-- R271: the interrupt level and when it rises. -/
def Obligations.IrqRisesAtCompletionOrEnable : Prop :=
  ∀ s t : State, step s = .next t →
    (t.irq = true ↔ t.readReg .ctrl = 1 ∧ (t.readReg .status).getLsbD 1 = true) ∧
    (s.irq = false → t.irq = true →
      s.completesNow = true ∨ ∃ v : Word, s.writesNow = some (.ctrl, v) ∧ v.getLsbD 0 = true ∧
        s.status.done = true) ∧
    (s.completesNow = true → t.irqen = true → t.irq = true) ∧
    (∀ v : Word, s.writesNow = some (.ctrl, v) → v.getLsbD 0 = true → s.status.done = true → t.irq = true)

/-- R272: when the interrupt level falls, and by nothing else. A clearing of DONE in the cycle of a
completion loses to it (10_state R35). -/
def Obligations.IrqFallsOnlyByClearAcceptDisableReset : Prop :=
  ∀ s t : State, step s = .next t →
    (s.clearsNow 1 = true → s.completesNow = false → t.irq = false) ∧
    (s.acceptsNow.isSome = true → t.irq = false) ∧
    (∀ v : Word, s.writesNow = some (.ctrl, v) → v.getLsbD 0 = false → t.irq = false) ∧
    (s.resetsNow = true → t.irq = false) ∧
    (s.irq = true → t.irq = false →
      s.clearsNow 1 = true ∨ s.acceptsNow.isSome = true ∨ s.resetsNow = true ∨
      ∃ v : Word, s.writesNow = some (.ctrl, v) ∧ v.getLsbD 0 = false)

/-- R290, R291, R292: reset from any state, a running command among them. -/
def Obligations.ResetGivesTheListedValues : Prop :=
  ∀ s : State, s.resetsNow = true →
    ∃ t : State, step s = .next t ∧
      (∀ p ∈ resetMap, ∀ addr : Nat, busAccess t p.1 (.read addr 4) = (⟨.okay, p.2⟩, t)) ∧
      t.irq = false ∧ t.status.busy = false ∧ t.count = 0 ∧
      (∀ k : Nat, s.inbox.tail = [] → Host.Core.run Sys2Proof.core k t = .next t) ∧
      ∀ (addr : Nat) (w : Word), ∃ u : State,
        busAccess t 0x08 (.write addr 4 w) = (⟨.okay, 0⟩, u) ∧ u.readReg .cmd = w ∧ u.status.busy = true

/-- 70_reset_and_hazards section 5 (R302) and section 3: from the acceptance of a legal word, with no other
access, the engine is busy for LAT cycles with its outputs unchanged, and in the last of them the
command completes. That the acceptance cycle is not counted is the model's reading (log 4). -/
def Obligations.CommandCompletesAfterItsLatency : Prop :=
  ∀ (s : State) (w : Word) (i : Instr), s.status.busy = false →
    s.inbox = [.access (.write (Config.sdesBase + 8) 4 w)] → decode w = .ok i →
    1 ≤ Config.lat (some i.opcode) ∧
    (∀ k < Config.lat (some i.opcode), ∃ t : State,
      Host.Core.run Sys2Proof.core (k + 1) s = .next t ∧ t.status.busy = true ∧ t.outputs = s.outputs ∧
      t.count = Config.lat (some i.opcode) - k) ∧
    ∃ t : State, Host.Core.run Sys2Proof.core (Config.lat (some i.opcode) + 1) s = .next t ∧
      t.status.busy = false ∧ t.status.done = true ∧
      exec i
        { s with
          cmd := w
          status := { s.status with busy := true, done := false }
          count := 0
          inbox := []
          resp := none } = .next t

/-- R264: an illegal word is accepted and completes after its latency with ECODE 4; only CMD and STATUS
differ. -/
def Obligations.IllegalWordCompletesWithIllegalCommand : Prop :=
  ∀ (s : State) (w : Word) (r : IllegalWord), s.status.busy = false →
    s.inbox = [.access (.write (Config.sdesBase + 8) 4 w)] → decode w = .error r →
    (∃ t : State, Host.Core.run Sys2Proof.core 1 s = .next t ∧ t.readReg .cmd = w ∧ t.status.busy = true) ∧
    ∃ t : State, Host.Core.run Sys2Proof.core (Config.lat none + 1) s = .next t ∧
      t.readReg .cmd = w ∧ t.status.ecode = 4 ∧ t.status.errtab = 0 ∧ t.status.err = true ∧
      t.status.done = true ∧ t.status.busy = false ∧ t.status.bviol = s.status.bviol ∧
      t.status.reslen = s.status.reslen ∧
      ∀ q : Reg, q ≠ .cmd → q ≠ .status → t.readReg q = s.readReg q

/-- 70_reset_and_hazards section 3 (R299): whatever the host accesses meanwhile, short of reset, a running
command ends with the results of its word and the input registers as they stand now. That a write in
the cycle of the completion is still discarded is the model's reading (log 3). -/
def Obligations.RunningCommandIgnoresTheHost : Prop :=
  ∀ (s : State) (i : Instr), s.status.busy = true → 0 < s.count → decode s.cmd = .ok i →
    (∀ e ∈ s.inbox, e ≠ .reset ∧ ∀ a : BusAccess, e = .access a → (windowOffset a.addr).isSome = true) →
    ∃ t u : State, Host.Core.run Sys2Proof.core s.count s = .next t ∧ exec i s = .next u ∧
      t.outputs = u.outputs ∧ t.inputs = s.inputs ∧ t.cmd = s.cmd ∧ t.status.busy = false ∧
      t.status.done = true ∧ t.status.ecode = u.status.ecode ∧ t.status.errtab = u.status.errtab ∧
      t.status.reslen = u.status.reslen

/-! ## The invariant -/

/-- 70_reset_and_hazards section 1, 10_state section 3: the invariant holds at reset. -/
def Obligations.ResetMeetsTheInvariant : Prop :=
  State.reset.Inv

/-- 10_state sections 3, 4 and 6, 93_implementation_defined section 2: every step keeps the invariant. -/
def Obligations.StepKeepsTheInvariant : Prop :=
  ∀ s t : State, s.Inv → step s = .next t → t.Inv
end

