-- ==== Sys2Proof/Laws/State.lean ====
section
/-! SUPPORT. What each named update of STATUS and of the state does to each field. -/

namespace Sys2Proof.Machine

@[simp] theorem Status.accept_busy (st : Status) :
    (st.accept).busy = true := rfl

@[simp] theorem Status.accept_done (st : Status) :
    (st.accept).done = false := rfl

@[simp] theorem Status.accept_err (st : Status) :
    (st.accept).err = st.err := rfl

@[simp] theorem Status.accept_bviol (st : Status) :
    (st.accept).bviol = st.bviol := rfl

@[simp] theorem Status.accept_ecode (st : Status) :
    (st.accept).ecode = st.ecode := rfl

@[simp] theorem Status.accept_errtab (st : Status) :
    (st.accept).errtab = st.errtab := rfl

@[simp] theorem Status.accept_reslen (st : Status) :
    (st.accept).reslen = st.reslen := rfl

@[simp] theorem Status.completeOk_busy (st : Status) :
    (st.completeOk).busy = false := rfl

@[simp] theorem Status.completeOk_done (st : Status) :
    (st.completeOk).done = true := rfl

@[simp] theorem Status.completeOk_err (st : Status) :
    (st.completeOk).err = st.err := rfl

@[simp] theorem Status.completeOk_bviol (st : Status) :
    (st.completeOk).bviol = st.bviol := rfl

@[simp] theorem Status.completeOk_ecode (st : Status) :
    (st.completeOk).ecode = 0 := rfl

@[simp] theorem Status.completeOk_errtab (st : Status) :
    (st.completeOk).errtab = 0 := rfl

@[simp] theorem Status.completeOk_reslen (st : Status) :
    (st.completeOk).reslen = st.reslen := rfl

@[simp] theorem Status.completeError_busy (st : Status) (e : CmdError) :
    (st.completeError e).busy = false := rfl

@[simp] theorem Status.completeError_done (st : Status) (e : CmdError) :
    (st.completeError e).done = true := rfl

@[simp] theorem Status.completeError_err (st : Status) (e : CmdError) :
    (st.completeError e).err = true := rfl

@[simp] theorem Status.completeError_bviol (st : Status) (e : CmdError) :
    (st.completeError e).bviol = st.bviol := rfl

@[simp] theorem Status.completeError_ecode (st : Status) (e : CmdError) :
    (st.completeError e).ecode = e.ecode := rfl

@[simp] theorem Status.completeError_errtab (st : Status) (e : CmdError) :
    (st.completeError e).errtab = e.errtab := rfl

@[simp] theorem Status.completeError_reslen (st : Status) (e : CmdError) :
    (st.completeError e).reslen = st.reslen := rfl

@[simp] theorem Status.clear_busy (st : Status) (v : Word) :
    (st.clear v).busy = st.busy := rfl

@[simp] theorem Status.clear_done (st : Status) (v : Word) :
    (st.clear v).done = (st.done && !v.getLsbD 1) := rfl

@[simp] theorem Status.clear_err (st : Status) (v : Word) :
    (st.clear v).err = (st.err && !v.getLsbD 2) := rfl

@[simp] theorem Status.clear_bviol (st : Status) (v : Word) :
    (st.clear v).bviol = (st.bviol && !v.getLsbD 3) := rfl

@[simp] theorem Status.clear_ecode (st : Status) (v : Word) :
    (st.clear v).ecode = st.ecode := rfl

@[simp] theorem Status.clear_errtab (st : Status) (v : Word) :
    (st.clear v).errtab = st.errtab := rfl

@[simp] theorem Status.clear_reslen (st : Status) (v : Word) :
    (st.clear v).reslen = st.reslen := rfl

@[simp] theorem Status.violate_busy (st : Status) :
    (st.violate).busy = st.busy := rfl

@[simp] theorem Status.violate_done (st : Status) :
    (st.violate).done = st.done := rfl

@[simp] theorem Status.violate_err (st : Status) :
    (st.violate).err = st.err := rfl

@[simp] theorem Status.violate_bviol (st : Status) :
    (st.violate).bviol = true := rfl

@[simp] theorem Status.violate_ecode (st : Status) :
    (st.violate).ecode = st.ecode := rfl

@[simp] theorem Status.violate_errtab (st : Status) :
    (st.violate).errtab = st.errtab := rfl

@[simp] theorem Status.violate_reslen (st : Status) :
    (st.violate).reslen = st.reslen := rfl

@[simp] theorem Status.setReslen_busy (st : Status) (m : Nat) :
    (st.setReslen m).busy = st.busy := rfl

@[simp] theorem Status.setReslen_done (st : Status) (m : Nat) :
    (st.setReslen m).done = st.done := rfl

@[simp] theorem Status.setReslen_err (st : Status) (m : Nat) :
    (st.setReslen m).err = st.err := rfl

@[simp] theorem Status.setReslen_bviol (st : Status) (m : Nat) :
    (st.setReslen m).bviol = st.bviol := rfl

@[simp] theorem Status.setReslen_ecode (st : Status) (m : Nat) :
    (st.setReslen m).ecode = st.ecode := rfl

@[simp] theorem Status.setReslen_errtab (st : Status) (m : Nat) :
    (st.setReslen m).errtab = st.errtab := rfl

@[simp] theorem Status.setReslen_reslen (st : Status) (m : Nat) :
    (st.setReslen m).reslen = BitVec.ofNat 4 m := rfl

@[simp] theorem State.writeInput_irqen (s : State) (r : Reg) (v : Word) :
    (s.writeInput r v).irqen = s.irqen := rfl

@[simp] theorem State.writeInput_cmd (s : State) (r : Reg) (v : Word) :
    (s.writeInput r v).cmd = s.cmd := rfl

@[simp] theorem State.writeInput_status (s : State) (r : Reg) (v : Word) :
    (s.writeInput r v).status = s.status := rfl

@[simp] theorem State.writeInput_inputs (s : State) (r : Reg) (v : Word) :
    (s.writeInput r v).inputs = s.inputs.write r v := rfl

@[simp] theorem State.writeInput_outputs (s : State) (r : Reg) (v : Word) :
    (s.writeInput r v).outputs = s.outputs := rfl

@[simp] theorem State.writeInput_count (s : State) (r : Reg) (v : Word) :
    (s.writeInput r v).count = s.count := rfl

@[simp] theorem State.writeInput_inbox (s : State) (r : Reg) (v : Word) :
    (s.writeInput r v).inbox = s.inbox := rfl

@[simp] theorem State.writeInput_resp (s : State) (r : Reg) (v : Word) :
    (s.writeInput r v).resp = s.resp := rfl

@[simp] theorem State.writeCtrl_irqen (s : State) (v : Word) :
    (s.writeCtrl v).irqen = v.getLsbD 0 := rfl

@[simp] theorem State.writeCtrl_cmd (s : State) (v : Word) :
    (s.writeCtrl v).cmd = s.cmd := rfl

@[simp] theorem State.writeCtrl_status (s : State) (v : Word) :
    (s.writeCtrl v).status = s.status := rfl

@[simp] theorem State.writeCtrl_inputs (s : State) (v : Word) :
    (s.writeCtrl v).inputs = s.inputs := rfl

@[simp] theorem State.writeCtrl_outputs (s : State) (v : Word) :
    (s.writeCtrl v).outputs = s.outputs := rfl

@[simp] theorem State.writeCtrl_count (s : State) (v : Word) :
    (s.writeCtrl v).count = s.count := rfl

@[simp] theorem State.writeCtrl_inbox (s : State) (v : Word) :
    (s.writeCtrl v).inbox = s.inbox := rfl

@[simp] theorem State.writeCtrl_resp (s : State) (v : Word) :
    (s.writeCtrl v).resp = s.resp := rfl

@[simp] theorem State.writeStatus_irqen (s : State) (v : Word) :
    (s.writeStatus v).irqen = s.irqen := rfl

@[simp] theorem State.writeStatus_cmd (s : State) (v : Word) :
    (s.writeStatus v).cmd = s.cmd := rfl

@[simp] theorem State.writeStatus_status (s : State) (v : Word) :
    (s.writeStatus v).status = s.status.clear v := rfl

@[simp] theorem State.writeStatus_inputs (s : State) (v : Word) :
    (s.writeStatus v).inputs = s.inputs := rfl

@[simp] theorem State.writeStatus_outputs (s : State) (v : Word) :
    (s.writeStatus v).outputs = s.outputs := rfl

@[simp] theorem State.writeStatus_count (s : State) (v : Word) :
    (s.writeStatus v).count = s.count := rfl

@[simp] theorem State.writeStatus_inbox (s : State) (v : Word) :
    (s.writeStatus v).inbox = s.inbox := rfl

@[simp] theorem State.writeStatus_resp (s : State) (v : Word) :
    (s.writeStatus v).resp = s.resp := rfl

@[simp] theorem State.discardWrite_irqen (s : State) :
    (s.discardWrite).irqen = s.irqen := rfl

@[simp] theorem State.discardWrite_cmd (s : State) :
    (s.discardWrite).cmd = s.cmd := rfl

@[simp] theorem State.discardWrite_status (s : State) :
    (s.discardWrite).status = s.status.violate := rfl

@[simp] theorem State.discardWrite_inputs (s : State) :
    (s.discardWrite).inputs = s.inputs := rfl

@[simp] theorem State.discardWrite_outputs (s : State) :
    (s.discardWrite).outputs = s.outputs := rfl

@[simp] theorem State.discardWrite_count (s : State) :
    (s.discardWrite).count = s.count := rfl

@[simp] theorem State.discardWrite_inbox (s : State) :
    (s.discardWrite).inbox = s.inbox := rfl

@[simp] theorem State.discardWrite_resp (s : State) :
    (s.discardWrite).resp = s.resp := rfl

@[simp] theorem State.accept_irqen (s : State) (w : Word) :
    (s.accept w).irqen = s.irqen := rfl

@[simp] theorem State.accept_cmd (s : State) (w : Word) :
    (s.accept w).cmd = w := rfl

@[simp] theorem State.accept_status (s : State) (w : Word) :
    (s.accept w).status = s.status.accept := rfl

@[simp] theorem State.accept_inputs (s : State) (w : Word) :
    (s.accept w).inputs = s.inputs := rfl

@[simp] theorem State.accept_outputs (s : State) (w : Word) :
    (s.accept w).outputs = s.outputs := rfl

@[simp] theorem State.accept_count (s : State) (w : Word) :
    (s.accept w).count = Config.lat (latencyClass w) := rfl

@[simp] theorem State.accept_inbox (s : State) (w : Word) :
    (s.accept w).inbox = s.inbox := rfl

@[simp] theorem State.accept_resp (s : State) (w : Word) :
    (s.accept w).resp = s.resp := rfl

@[simp] theorem State.writeResult_irqen (s : State) (m : Nat) (v : BitVec 10) :
    (s.writeResult m v).irqen = s.irqen := rfl

@[simp] theorem State.writeResult_cmd (s : State) (m : Nat) (v : BitVec 10) :
    (s.writeResult m v).cmd = s.cmd := rfl

@[simp] theorem State.writeResult_status (s : State) (m : Nat) (v : BitVec 10) :
    (s.writeResult m v).status = s.status.setReslen m := rfl

@[simp] theorem State.writeResult_inputs (s : State) (m : Nat) (v : BitVec 10) :
    (s.writeResult m v).inputs = s.inputs := rfl

@[simp] theorem State.writeResult_outputs (s : State) (m : Nat) (v : BitVec 10) :
    (s.writeResult m v).outputs = { s.outputs with res := v } := rfl

@[simp] theorem State.writeResult_count (s : State) (m : Nat) (v : BitVec 10) :
    (s.writeResult m v).count = s.count := rfl

@[simp] theorem State.writeResult_inbox (s : State) (m : Nat) (v : BitVec 10) :
    (s.writeResult m v).inbox = s.inbox := rfl

@[simp] theorem State.writeResult_resp (s : State) (m : Nat) (v : BitVec 10) :
    (s.writeResult m v).resp = s.resp := rfl

@[simp] theorem State.writeSubkeys_irqen (s : State) (a b : BitVec 8) :
    (s.writeSubkeys a b).irqen = s.irqen := rfl

@[simp] theorem State.writeSubkeys_cmd (s : State) (a b : BitVec 8) :
    (s.writeSubkeys a b).cmd = s.cmd := rfl

@[simp] theorem State.writeSubkeys_status (s : State) (a b : BitVec 8) :
    (s.writeSubkeys a b).status = s.status := rfl

@[simp] theorem State.writeSubkeys_inputs (s : State) (a b : BitVec 8) :
    (s.writeSubkeys a b).inputs = s.inputs := rfl

@[simp] theorem State.writeSubkeys_outputs (s : State) (a b : BitVec 8) :
    (s.writeSubkeys a b).outputs = { s.outputs with k1 := a, k2 := b } := rfl

@[simp] theorem State.writeSubkeys_count (s : State) (a b : BitVec 8) :
    (s.writeSubkeys a b).count = s.count := rfl

@[simp] theorem State.writeSubkeys_inbox (s : State) (a b : BitVec 8) :
    (s.writeSubkeys a b).inbox = s.inbox := rfl

@[simp] theorem State.writeSubkeys_resp (s : State) (a b : BitVec 8) :
    (s.writeSubkeys a b).resp = s.resp := rfl

@[simp] theorem State.writeIpinv_irqen (s : State) (T : List Nat) :
    (s.writeIpinv T).irqen = s.irqen := rfl

@[simp] theorem State.writeIpinv_cmd (s : State) (T : List Nat) :
    (s.writeIpinv T).cmd = s.cmd := rfl

@[simp] theorem State.writeIpinv_status (s : State) (T : List Nat) :
    (s.writeIpinv T).status = s.status := rfl

@[simp] theorem State.writeIpinv_inputs (s : State) (T : List Nat) :
    (s.writeIpinv T).inputs = s.inputs := rfl

@[simp] theorem State.writeIpinv_outputs (s : State) (T : List Nat) :
    (s.writeIpinv T).outputs = { s.outputs with ipinv := packTable T } := rfl

@[simp] theorem State.writeIpinv_count (s : State) (T : List Nat) :
    (s.writeIpinv T).count = s.count := rfl

@[simp] theorem State.writeIpinv_inbox (s : State) (T : List Nat) :
    (s.writeIpinv T).inbox = s.inbox := rfl

@[simp] theorem State.writeIpinv_resp (s : State) (T : List Nat) :
    (s.writeIpinv T).resp = s.resp := rfl

@[simp] theorem State.writeDout_irqen (s : State) (b : BitVec 8) :
    (s.writeDout b).irqen = s.irqen := rfl

@[simp] theorem State.writeDout_cmd (s : State) (b : BitVec 8) :
    (s.writeDout b).cmd = s.cmd := rfl

@[simp] theorem State.writeDout_status (s : State) (b : BitVec 8) :
    (s.writeDout b).status = s.status := rfl

@[simp] theorem State.writeDout_inputs (s : State) (b : BitVec 8) :
    (s.writeDout b).inputs = s.inputs := rfl

@[simp] theorem State.writeDout_outputs (s : State) (b : BitVec 8) :
    (s.writeDout b).outputs = { s.outputs with dout := b } := rfl

@[simp] theorem State.writeDout_count (s : State) (b : BitVec 8) :
    (s.writeDout b).count = s.count := rfl

@[simp] theorem State.writeDout_inbox (s : State) (b : BitVec 8) :
    (s.writeDout b).inbox = s.inbox := rfl

@[simp] theorem State.writeDout_resp (s : State) (b : BitVec 8) :
    (s.writeDout b).resp = s.resp := rfl

@[simp] theorem State.writeCipher_irqen (s : State) (r : CipherResult) :
    (s.writeCipher r).irqen = s.irqen := rfl

@[simp] theorem State.writeCipher_cmd (s : State) (r : CipherResult) :
    (s.writeCipher r).cmd = s.cmd := rfl

@[simp] theorem State.writeCipher_status (s : State) (r : CipherResult) :
    (s.writeCipher r).status = s.status := rfl

@[simp] theorem State.writeCipher_inputs (s : State) (r : CipherResult) :
    (s.writeCipher r).inputs = s.inputs := rfl

@[simp] theorem State.writeCipher_outputs (s : State) (r : CipherResult) :
    (s.writeCipher r).outputs = { dout := r.block, k1 := r.k1, k2 := r.k2, ipinv := packTable r.inv, res := s.outputs.res } := rfl

@[simp] theorem State.writeCipher_count (s : State) (r : CipherResult) :
    (s.writeCipher r).count = s.count := rfl

@[simp] theorem State.writeCipher_inbox (s : State) (r : CipherResult) :
    (s.writeCipher r).inbox = s.inbox := rfl

@[simp] theorem State.writeCipher_resp (s : State) (r : CipherResult) :
    (s.writeCipher r).resp = s.resp := rfl

@[simp] theorem State.completeOk_irqen (s : State) :
    (s.completeOk).irqen = s.irqen := rfl

@[simp] theorem State.completeOk_cmd (s : State) :
    (s.completeOk).cmd = s.cmd := rfl

@[simp] theorem State.completeOk_status (s : State) :
    (s.completeOk).status = s.status.completeOk := rfl

@[simp] theorem State.completeOk_inputs (s : State) :
    (s.completeOk).inputs = s.inputs := rfl

@[simp] theorem State.completeOk_outputs (s : State) :
    (s.completeOk).outputs = s.outputs := rfl

@[simp] theorem State.completeOk_count (s : State) :
    (s.completeOk).count = s.count := rfl

@[simp] theorem State.completeOk_inbox (s : State) :
    (s.completeOk).inbox = s.inbox := rfl

@[simp] theorem State.completeOk_resp (s : State) :
    (s.completeOk).resp = s.resp := rfl

@[simp] theorem State.completeError_irqen (s : State) (e : CmdError) :
    (s.completeError e).irqen = s.irqen := rfl

@[simp] theorem State.completeError_cmd (s : State) (e : CmdError) :
    (s.completeError e).cmd = s.cmd := rfl

@[simp] theorem State.completeError_status (s : State) (e : CmdError) :
    (s.completeError e).status = s.status.completeError e := rfl

@[simp] theorem State.completeError_inputs (s : State) (e : CmdError) :
    (s.completeError e).inputs = s.inputs := rfl

@[simp] theorem State.completeError_outputs (s : State) (e : CmdError) :
    (s.completeError e).outputs = s.outputs := rfl

@[simp] theorem State.completeError_count (s : State) (e : CmdError) :
    (s.completeError e).count = s.count := rfl

@[simp] theorem State.completeError_inbox (s : State) (e : CmdError) :
    (s.completeError e).inbox = s.inbox := rfl

@[simp] theorem State.completeError_resp (s : State) (e : CmdError) :
    (s.completeError e).resp = s.resp := rfl

@[simp] theorem State.takeEvent_irqen (s : State) :
    (s.takeEvent).irqen = s.irqen := rfl

@[simp] theorem State.takeEvent_cmd (s : State) :
    (s.takeEvent).cmd = s.cmd := rfl

@[simp] theorem State.takeEvent_status (s : State) :
    (s.takeEvent).status = s.status := rfl

@[simp] theorem State.takeEvent_inputs (s : State) :
    (s.takeEvent).inputs = s.inputs := rfl

@[simp] theorem State.takeEvent_outputs (s : State) :
    (s.takeEvent).outputs = s.outputs := rfl

@[simp] theorem State.takeEvent_count (s : State) :
    (s.takeEvent).count = s.count := rfl

@[simp] theorem State.takeEvent_inbox (s : State) :
    (s.takeEvent).inbox = s.inbox.tail := rfl

@[simp] theorem State.takeEvent_resp (s : State) :
    (s.takeEvent).resp = none := rfl

@[simp] theorem State.countDown_irqen (s : State) :
    (s.countDown).irqen = s.irqen := rfl

@[simp] theorem State.countDown_cmd (s : State) :
    (s.countDown).cmd = s.cmd := rfl

@[simp] theorem State.countDown_status (s : State) :
    (s.countDown).status = s.status := rfl

@[simp] theorem State.countDown_inputs (s : State) :
    (s.countDown).inputs = s.inputs := rfl

@[simp] theorem State.countDown_outputs (s : State) :
    (s.countDown).outputs = s.outputs := rfl

@[simp] theorem State.countDown_count (s : State) :
    (s.countDown).count = s.count - 1 := rfl

@[simp] theorem State.countDown_inbox (s : State) :
    (s.countDown).inbox = s.inbox := rfl

@[simp] theorem State.countDown_resp (s : State) :
    (s.countDown).resp = s.resp := rfl

@[simp] theorem State.afterReset_irqen (s : State) :
    (s.afterReset).irqen = false := rfl

@[simp] theorem State.afterReset_cmd (s : State) :
    (s.afterReset).cmd = 0 := rfl

@[simp] theorem State.afterReset_status (s : State) :
    (s.afterReset).status = Status.reset := rfl

@[simp] theorem State.afterReset_inputs (s : State) :
    (s.afterReset).inputs = Inputs.reset := rfl

@[simp] theorem State.afterReset_outputs (s : State) :
    (s.afterReset).outputs = Outputs.reset := rfl

@[simp] theorem State.afterReset_count (s : State) :
    (s.afterReset).count = 0 := rfl

@[simp] theorem State.afterReset_inbox (s : State) :
    (s.afterReset).inbox = s.inbox.tail := rfl

@[simp] theorem State.afterReset_resp (s : State) :
    (s.afterReset).resp = none := rfl

@[simp] theorem State.withAccepted_irqen (s : State) (w : Word) :
    (s.withAccepted w).irqen = s.irqen := rfl

@[simp] theorem State.withAccepted_cmd (s : State) (w : Word) :
    (s.withAccepted w).cmd = w := rfl

@[simp] theorem State.withAccepted_status (s : State) (w : Word) :
    (s.withAccepted w).status = s.status.accept := rfl

@[simp] theorem State.withAccepted_inputs (s : State) (w : Word) :
    (s.withAccepted w).inputs = s.inputs := rfl

@[simp] theorem State.withAccepted_outputs (s : State) (w : Word) :
    (s.withAccepted w).outputs = s.outputs := rfl

@[simp] theorem State.withAccepted_count (s : State) (w : Word) :
    (s.withAccepted w).count = 1 := rfl

@[simp] theorem State.withAccepted_inbox (s : State) (w : Word) :
    (s.withAccepted w).inbox = .idle :: s.inbox := rfl

@[simp] theorem State.withAccepted_resp (s : State) (w : Word) :
    (s.withAccepted w).resp = s.resp := rfl

@[simp] theorem State.afterAccess_resp (s : State) (o : Nat) (a : BusAccess) :
    (s.afterAccess o a).resp = some (busAccess s.takeEvent o a).1 := rfl

@[simp] theorem State.afterAccess_irqen (s : State) (o : Nat) (a : BusAccess) :
    (s.afterAccess o a).irqen = (busAccess s.takeEvent o a).2.irqen := rfl

@[simp] theorem State.afterAccess_cmd (s : State) (o : Nat) (a : BusAccess) :
    (s.afterAccess o a).cmd = (busAccess s.takeEvent o a).2.cmd := rfl

@[simp] theorem State.afterAccess_status (s : State) (o : Nat) (a : BusAccess) :
    (s.afterAccess o a).status = (busAccess s.takeEvent o a).2.status := rfl

@[simp] theorem State.afterAccess_inputs (s : State) (o : Nat) (a : BusAccess) :
    (s.afterAccess o a).inputs = (busAccess s.takeEvent o a).2.inputs := rfl

@[simp] theorem State.afterAccess_outputs (s : State) (o : Nat) (a : BusAccess) :
    (s.afterAccess o a).outputs = (busAccess s.takeEvent o a).2.outputs := rfl

@[simp] theorem State.afterAccess_count (s : State) (o : Nat) (a : BusAccess) :
    (s.afterAccess o a).count = (busAccess s.takeEvent o a).2.count := rfl

@[simp] theorem State.afterAccess_inbox (s : State) (o : Nat) (a : BusAccess) :
    (s.afterAccess o a).inbox = (busAccess s.takeEvent o a).2.inbox := rfl

end Sys2Proof.Machine
end

