-- ==== Sys2Proof/Laws/Bus.lean ====
section
/-! SUPPORT. What one host access can do. -/

namespace Sys2Proof.Machine

theorem windowOffset_base {o : Nat} (h : o < 256) : windowOffset (Config.sdesBase + o) = some o := by
  simp [windowOffset, h]

/-- An address has an offset exactly inside the window, and then below 256. -/
theorem windowOffset_eq_some {a o : Nat} :
    windowOffset a = some o ↔ Config.sdesBase ≤ a ∧ o < 256 ∧ a = Config.sdesBase + o := by
  unfold windowOffset
  split
  · simp; omega
  · simp; omega

theorem windowOffset_eq_none {a : Nat} :
    windowOffset a = none ↔ a < Config.sdesBase ∨ Config.sdesBase + 0xFF < a := by
  unfold windowOffset
  split
  · simp; omega
  · simp; omega

theorem regAt_offset (r : Reg) : regAt r.offset = some r := by
  cases r <;> rfl

/-- Only the 21 aligned offsets below 0x54 hold a register. -/
theorem regAt_eq_some {o : Nat} {r : Reg} (h : regAt o = some r) : o = r.offset := by
  unfold regAt at h
  split at h <;> cases h <;> rfl

theorem regAt_bad {o : Nat} (h : o % 4 ≠ 0 ∨ 0x54 ≤ o) : regAt o = none := by
  cases hr : regAt o with
  | none => rfl
  | some r =>
    have := regAt_eq_some hr
    subst this
    cases r <;> simp [Reg.offset] at h

theorem target_offset (r : Reg) : target r.offset 4 = some r := by
  simp [target, regAt_offset]

theorem target_bad {o width : Nat} (h : width ≠ 4 ∨ o % 4 ≠ 0 ∨ 0x54 ≤ o) : target o width = none := by
  unfold target
  split
  · exact regAt_bad (by simp_all)
  · rfl

/-- The register and the width of an access that reaches one. -/
theorem target_eq_some {o width : Nat} {r : Reg} (h : target o width = some r) :
    width = 4 ∧ o = r.offset := by
  unfold target at h
  split at h
  · exact ⟨‹_›, regAt_eq_some h⟩
  · cases h

/-- The five things a write to a register can do to the state, by access type and BUSY. -/
theorem writeReg_state (s : State) (r : Reg) (v : Word) :
    (r.access = .readOnly ∧ (writeReg s r v).2 = s) ∨
    (r = .status ∧ (writeReg s r v).2 = s.writeStatus v) ∨
    (r = .ctrl ∧ (writeReg s r v).2 = s.writeCtrl v) ∨
    ((r.access = .issue ∨ r.access = .input) ∧ s.status.busy = true ∧
      (writeReg s r v).2 = s.discardWrite) ∨
    (r = .cmd ∧ s.status.busy = false ∧ (writeReg s r v).2 = s.accept v) ∨
    (r.access = .input ∧ s.status.busy = false ∧ (writeReg s r v).2 = s.writeInput r v) := by
  cases hb : s.status.busy <;> cases r <;> simp [writeReg, Reg.access, hb]

/-- An access leaves the outputs, the host's events and the last reply alone. -/
theorem busAccess_frame (s : State) (o : Nat) (a : BusAccess) :
    (busAccess s o a).2.outputs = s.outputs ∧ (busAccess s o a).2.inbox = s.inbox ∧
      (busAccess s o a).2.resp = s.resp := by
  cases a with
  | read addr width => simp [busAccess]
  | write addr width v =>
    simp only [busAccess, busWrite]
    split
    · rename_i r _
      obtain ⟨-, h⟩ | ⟨-, h⟩ | ⟨-, h⟩ | ⟨-, -, h⟩ | ⟨-, -, h⟩ | ⟨-, -, h⟩ := writeReg_state s r v <;>
        simp [h]
    · simp

/-- While busy an access leaves CMD, the input registers, the hidden count and every STATUS field but
DONE, ERR and BVIOL alone. -/
theorem busAccess_busy (s : State) (o : Nat) (a : BusAccess) (hb : s.status.busy = true) :
    (busAccess s o a).2.cmd = s.cmd ∧ (busAccess s o a).2.inputs = s.inputs ∧
      (busAccess s o a).2.count = s.count ∧ (busAccess s o a).2.status.busy = true ∧
      (busAccess s o a).2.status.ecode = s.status.ecode ∧
      (busAccess s o a).2.status.errtab = s.status.errtab ∧
      (busAccess s o a).2.status.reslen = s.status.reslen := by
  cases a with
  | read addr width => simp [busAccess, hb]
  | write addr width v =>
    simp only [busAccess, busWrite]
    split
    · rename_i r _
      obtain ⟨-, h⟩ | ⟨-, h⟩ | ⟨-, h⟩ | ⟨-, -, h⟩ | ⟨-, h', h⟩ | ⟨-, h', h⟩ := writeReg_state s r v <;>
        simp_all
    · simp [hb]

end Sys2Proof.Machine
end

