-- ==== Sys2Proof/Laws/Cycle.lean ====
section
/-! SUPPORT. What a completion and a cycle can do, said once. -/

namespace Sys2Proof.Machine

/-! ### Completions -/

@[simp] theorem complete_ok {α : Type} (s : State) (a : α) (write : State → α → State) :
    complete s (.ok a) write = .next (write s a).completeOk := rfl

@[simp] theorem complete_error {α : Type} (s : State) (e : CmdError) (write : State → α → State) :
    complete s (.error e) write = .next (s.completeError e) := rfl

/-- A completion answers a next state: the writes and the success, or the error alone. -/
theorem complete_next {α : Type} {s t : State} {r : Except CmdError α} {write : State → α → State}
    (h : complete s r write = .next t) :
    (∃ a, r = .ok a ∧ t = (write s a).completeOk) ∨ (∃ e, r = .error e ∧ t = s.completeError e) := by
  cases r with
  | ok a => exact .inl ⟨a, rfl, by simpa using h.symm⟩
  | error e => exact .inr ⟨e, rfl, by simpa using h.symm⟩

/-- The error completion in the terms of claims. -/
theorem completeError_eq_failed (s : State) (e : CmdError) :
    s.completeError e = s.failed e.ecode e.errtab := rfl

/-- The codes of an error as numbers. -/
theorem CmdError.codes_eq (e : CmdError) :
    e.ecode = BitVec.ofNat 3 e.codes.1 ∧ e.errtab = BitVec.ofNat 4 e.codes.2 := by
  cases e with
  | configuration t => cases t <;> decide
  | lengthMismatch => decide
  | domain => decide
  | illegalCommand => decide

/-! ### The cycle -/

/-- The engine's part of a cycle: nothing while idle, the count alone, or the completion step. -/
theorem engineCycle_next {b : Bool} {s t : State} (h : engineCycle b s = .next t) :
    (b = false ∧ t = s) ∨
    (b = true ∧ 1 < s.count ∧ t = s.countDown) ∨
    (b = true ∧ s.count ≤ 1 ∧ completionStep s.countDown = .next t) := by
  unfold engineCycle at h
  split at h
  · split at h
    · rename_i hc; simp at hc
      exact .inr (.inr ⟨‹_›, by omega, h⟩)
    · rename_i hc; simp at hc
      exact .inr (.inl ⟨‹_›, by omega, by simpa using h.symm⟩)
  · exact .inl ⟨by simpa using ‹¬ b = true›, by simpa using h.symm⟩

theorem step_reset {s : State} (h : s.event = .reset) : step s = .next s.afterReset := by
  simp [step, cycle, h]

theorem step_idle {s : State} (h : s.event = .idle) :
    step s = engineCycle s.status.busy s.takeEvent := by
  simp [step, cycle, h]

theorem step_access {s : State} {a : BusAccess} {o : Nat} (h : s.event = .access a)
    (ho : windowOffset a.addr = some o) : step s = engineCycle s.status.busy (s.afterAccess o a) := by
  simp [step, cycle, h, ho]

theorem step_outside {s : State} {a : BusAccess} (h : s.event = .access a)
    (ho : windowOffset a.addr = none) : step s = .fault .outsideWindow := by
  simp [step, cycle, h, ho]

/-- Everything a step that answers a next state can be: a reset; the engine's part of a cycle alone; or
the host's access in the window and then the engine's part. -/
theorem step_next {s t : State} (h : step s = .next t) :
    (s.event = .reset ∧ t = s.afterReset) ∨
    (s.event = .idle ∧ engineCycle s.status.busy s.takeEvent = .next t) ∨
    ∃ a o, s.event = .access a ∧ windowOffset a.addr = some o ∧
      engineCycle s.status.busy (s.afterAccess o a) = .next t := by
  cases he : s.event with
  | reset => exact .inl ⟨rfl, by rw [step_reset he] at h; simpa using h.symm⟩
  | idle => exact .inr (.inl ⟨rfl, by rw [step_idle he] at h; exact h⟩)
  | access a =>
    cases ho : windowOffset a.addr with
    | none => rw [step_outside he ho] at h; cases h
    | some o => exact .inr (.inr ⟨a, o, rfl, ho, by rw [step_access he ho] at h; exact h⟩)

end Sys2Proof.Machine
end

