-- ==== Sys2Proof/Laws/PerInstr.lean ====
section
/-! SUPPORT. A statement about every command as syntax: its word lies in its row of the opcode table. -/

namespace Sys2Proof.Laws.WordRow

/-- The mask of a command's row of the opcode table (30_encoding R105). -/
def mask : Opcode → Word
  | .nop => 0xFFFFFFFF
  | .keysched => 0xFFFFFFFF
  | .encrypt => 0xFFFFFFFF
  | .decrypt => 0xFFFFFFFF
  | .ipinv => 0xFFFFFFFF
  | .round => 0xFFFFFFFF
  | .swap => 0xFFFFFFFF
  | .perm => 0xFFFFF00F
  | .rotl => 0xFFF0F0FF
  | .xor => 0xFFFF00FF
  | .sbox => 0xFFFFFFEF

/-- The word of a command's row with its free fields 0 (30_encoding R105). -/
def rowWord : Opcode → Word
  | .nop => 0x00000000
  | .keysched => 0x00000001
  | .encrypt => 0x00000002
  | .decrypt => 0x00000003
  | .ipinv => 0x00000004
  | .round => 0x00000005
  | .swap => 0x00000006
  | .perm => 0x00000007
  | .rotl => 0x00000008
  | .xor => 0x00000009
  | .sbox => 0x0000000A

/-- The word of a well-formed command selects the command's row (30_encoding R105). -/
def Statement (i : Instr) : Prop :=
  i.wellFormed = true → encode i &&& mask i.opcode = rowWord i.opcode

theorem nop : Statement .nop := fun _ => by decide

theorem keysched : Statement .keysched := fun _ => by decide

theorem encrypt : Statement .encrypt := fun _ => by decide

theorem decrypt : Statement .decrypt := fun _ => by decide

theorem ipinv : Statement .ipinv := fun _ => by decide

theorem round : Statement .round := fun _ => by decide

theorem swap : Statement .swap := fun _ => by decide

theorem perm (table : PermTable) (lenA : Nat) : Statement (.perm table lenA) := by
  intro h
  simp only [Instr.wellFormed, lenLegal, Bool.and_eq_true, decide_eq_true_eq] at h
  obtain ⟨h1, h2⟩ := h
  cases table <;> interval_cases lenA <;> decide

theorem rotl (lenA n : Nat) : Statement (.rotl lenA n) := by
  intro h
  simp only [Instr.wellFormed, lenLegal, amountLegal, Bool.and_eq_true, decide_eq_true_eq] at h
  obtain ⟨⟨h1, h2⟩, h3⟩ := h
  interval_cases lenA <;> interval_cases n <;> decide

theorem xor (lenA lenB : Nat) : Statement (.xor lenA lenB) := by
  intro h
  simp only [Instr.wellFormed, lenLegal, Bool.and_eq_true, decide_eq_true_eq] at h
  obtain ⟨⟨h1, h2⟩, h3, h4⟩ := h
  interval_cases lenA <;> interval_cases lenB <;> decide

theorem sbox (box : SBoxName) : Statement (.sbox box) := by
  intro _
  cases box <;> decide

end Sys2Proof.Laws.WordRow
end

