-- ==== Sys2Proof/Laws/Units.lean ====
section
/-! SUPPORT. What each unit function can do: strings of values, gathering, the permutation unit, rotation,
exclusive OR, the table checks, the inverse of IP. -/

namespace Sys2Proof.Machine

/-! ### Strings -/

theorem stringOf_length {n : Nat} (v : BitVec n) : (stringOf v).length = n := by
  simp [stringOf]

theorem stringOf_getElem? {n : Nat} (v : BitVec n) {i : Nat} (h : i < n) :
    (stringOf v)[i]? = some (v.getLsbD (n - 1 - i)) := by
  simp [stringOf, h]

theorem stringOf_getD {n : Nat} (v : BitVec n) {i : Nat} (h : i < n) (d : Bool) :
    (stringOf v).getD i d = v.getLsbD (n - 1 - i) := by
  simp [List.getD_eq_getElem?_getD, stringOf_getElem? v h]

/-- Two values of one width with the same string are equal. -/
theorem stringOf_injective {n : Nat} {u v : BitVec n} (h : stringOf u = stringOf v) : u = v := by
  apply BitVec.eq_of_getLsbD_eq
  intro i hi
  have hj : n - 1 - i < n := by omega
  have h1 := stringOf_getElem? u hj
  rw [h, stringOf_getElem? v hj] at h1
  have e : n - 1 - (n - 1 - i) = i := by omega
  rw [e] at h1
  exact (Option.some.inj h1).symm

/-! ### Gathering and the permutation unit -/

/-- Position `i` of a gathered string is the position the table's entry `i` names. -/
theorem gather_getLsbD {n : Nat} (v : BitVec n) (T : List Nat) {i : Nat} (h : i < T.length) :
    (gather v T).getLsbD (T.length - 1 - i) = v.getLsbD (n - T.getD i 0) := by
  induction T generalizing i with
  | nil => simp at h
  | cons t ts ih =>
    cases i with
    | zero =>
      show (BitVec.cons (v.getLsbD (n - t)) (gather v ts)).getLsbD (ts.length + 1 - 1 - 0) = _
      rw [BitVec.getLsbD_cons]
      simp
    | succ i =>
      have h' : i < ts.length := by simpa using h
      have e : (t :: ts).length - 1 - (i + 1) = ts.length - 1 - i := by simp; omega
      have ne : ts.length - 1 - i ≠ ts.length := by omega
      rw [e, gather, BitVec.getLsbD_cons, if_neg ne, ih h']
      simp

theorem inRange_iff (n : Nat) (T : List Nat) : inRange n T = true ↔ entriesWithin n T := by
  simp [inRange, entriesWithin]

theorem noRepeats_iff (T : List Nat) : noRepeats T = true ↔ T.Nodup := by
  induction T with
  | nil => simp [noRepeats]
  | cons t ts ih => simp [noRepeats, ih]

theorem permute_ok {n : Nat} (tab : PermTable) (v : BitVec n) {T : List Nat} (h : entriesWithin n T) :
    permute tab v T = .ok (gather v T) := by
  simp [permute, (inRange_iff n T).2 h]

theorem permute_error {n : Nat} (tab : PermTable) (v : BitVec n) {T : List Nat}
    (h : ¬ entriesWithin n T) : permute tab v T = .error (.configuration tab) := by
  have : inRange n T = false := by
    rw [← Bool.not_eq_true, inRange_iff]; exact h
  simp [permute, this]

/-- On strings, gathering is the source's `apply`. -/
theorem stringOf_gather {n : Nat} (v : BitVec n) {T : List Nat} (h : entriesWithin n T) :
    stringOf (gather v T) = strApply (stringOf v) T := by
  apply List.ext_getElem?
  intro i
  by_cases hi : i < T.length
  · have ht := h (T[i]) (List.getElem_mem hi)
    rw [stringOf_getElem? _ hi, gather_getLsbD v T hi]
    have hd : T.getD i 0 = T[i] := by simp [List.getD_eq_getElem?_getD, hi]
    have e : n - 1 - (T[i] - 1) = n - T[i] := by omega
    have hl : T[i] - 1 < n := by omega
    simp only [strApply, List.getElem?_map, List.getElem?_eq_getElem hi, Option.map_some, hd,
      stringOf_getD v hl, e]
  · have h1 : (stringOf (gather v T)).length ≤ i := by rw [stringOf_length]; omega
    have h2 : (strApply (stringOf v) T).length ≤ i := by simp [strApply]; omega
    rw [List.getElem?_eq_none h1, List.getElem?_eq_none h2]

/-! ### Rotation and exclusive OR -/

theorem rotL_ok {L : Nat} (v : BitVec L) {k : Nat} (h : k ≤ L) :
    rotL v k = .ok ((v <<< k) ||| (v >>> (L - k))) := by
  simp [rotL, Nat.not_lt.2 h]

theorem rotL_error {L : Nat} (v : BitVec L) {k : Nat} (h : L < k) : rotL v k = .error .domain := by
  simp [rotL, h]

theorem xorBits_same {l : Nat} (a b : BitVec l) : xorBits a b = .ok (a ^^^ b) := by
  simp [xorBits]

theorem xorBits_error {la lb : Nat} (a : BitVec la) (b : BitVec lb) (h : la ≠ lb) :
    xorBits a b = .error .lengthMismatch := by
  simp [xorBits, h]

/-! ### Tables -/

theorem nibbles_length {w : Nat} (k : Nat) (r : BitVec w) : (nibbles k r).length = k := by
  simp [nibbles]

theorem tableP10_length (x : Inputs) : x.tableP10.length = 10 := by
  simp [Inputs.tableP10, nibbles_length]

theorem tableP8_length (x : Inputs) : x.tableP8.length = 8 := nibbles_length 8 _

theorem tableIp_length (x : Inputs) : x.tableIp.length = 8 := nibbles_length 8 _

theorem tableEp_length (x : Inputs) : x.tableEp.length = 8 := nibbles_length 8 _

theorem tableP4_length (x : Inputs) : x.tableP4.length = 4 := nibbles_length 4 _

/-- What a check of several tables answers: the first bad one, or that there is none. -/
theorem checkTables_eq (x : Inputs) (ts : List PermTable) :
    checkTables x ts = match x.firstBadTable ts with
      | some e => .error e
      | none => .ok () := by
  induction ts with
  | nil => rfl
  | cons t ts ih =>
    by_cases h : x.tableOk t = true
    · simp [checkTables, h, ih, Inputs.firstBadTable]
    · simp [checkTables, h, Inputs.firstBadTable]

theorem checkTables_ok {x : Inputs} {ts : List PermTable} (h : ∀ t ∈ ts, x.tableOk t = true) :
    checkTables x ts = .ok () := by
  induction ts with
  | nil => rfl
  | cons t ts ih =>
    have h1 := h t (by simp)
    have h2 := ih fun u hu => h u (by simp [hu])
    simp [checkTables, h1, h2]

/-! ### The inverse of IP -/

theorem invertFrom_length (T : List Nat) (i : Nat) (inv : List Nat) :
    (invertFrom i inv T).length = inv.length := by
  induction T generalizing i inv with
  | nil => rfl
  | cons t ts ih => simp [invertFrom, ih]

/-- A position that no later entry writes keeps its value. -/
theorem invertFrom_untouched (T : List Nat) (i : Nat) (inv : List Nat) (p : Nat)
    (h : ∀ t ∈ T, t - 1 ≠ p) : (invertFrom i inv T)[p]? = inv[p]? := by
  induction T generalizing i inv with
  | nil => rfl
  | cons t ts ih =>
    rw [invertFrom, ih (i + 1) _ fun u hu => h u (by simp [hu])]
    exact List.getElem?_set_ne (h t (by simp))

/-- The position a table's entry `j` names holds `i + j + 1` in the end, when no entry repeats. -/
theorem invertFrom_named (T : List Nat) (i : Nat) (inv : List Nat) (hT : entriesWithin inv.length T)
    (hn : T.Nodup) {j : Nat} (hj : j < T.length) :
    (invertFrom i inv T)[T.getD j 0 - 1]? = some (i + j + 1) := by
  induction T generalizing i inv j with
  | nil => simp at hj
  | cons t ts ih =>
    have ht := hT t (by simp)
    have hts : ∀ u ∈ ts, 1 ≤ u ∧ u ≤ inv.length := fun u hu => hT u (by simp [hu])
    rw [List.nodup_cons] at hn
    cases j with
    | zero =>
      have hu : ∀ u ∈ ts, u - 1 ≠ t - 1 := by
        intro u hu e
        have := hts u hu
        have : u = t := by omega
        exact hn.1 (this ▸ hu)
      rw [invertFrom]
      simp only [List.getD_cons_zero]
      rw [invertFrom_untouched ts (i + 1) _ _ hu]
      have : t - 1 < inv.length := by omega
      simp [this]
    | succ j =>
      have hj' : j < ts.length := by simpa using hj
      rw [invertFrom]
      simp only [List.getD_cons_succ]
      rw [ih (i + 1) _ (by simpa [entriesWithin] using hts) hn.2 hj']
      congr 1; omega

/-- The derived table of an IP that passes its check is its inverse (45_cipher_engine R215). -/
theorem invertTable_inverseIs (x : Inputs) (h : entriesWithin 8 x.tableIp) (hn : x.tableIp.Nodup) :
    x.inverseIs (invertTable x.tableIp) := by
  refine ⟨by simp [invertTable, invertFrom_length], fun i hi => ?_⟩
  have := invertFrom_named x.tableIp 0 (List.replicate 8 0) (by simpa using h) hn
    (j := i) (by rw [tableIp_length]; exact hi)
  simpa [invertTable] using this

end Sys2Proof.Machine
end

