-- ==== Sys2Proof/Tests/Slice0.lean ====
section
/-! SUPPORT. Tests of the model on values the spec writes out (95_test_vectors), and for every obligation
with hypotheses a theorem that shows what meets them. -/

namespace Sys2Proof.Machine.Tests

/-! ## Well-formedness: each check refuses an ill-formed command (30_encoding R103, R105) -/

theorem test_wellFormed_perm_lenA : Instr.wellFormed (.perm .ip 0) = false ∧
    Instr.wellFormed (.perm .ip 11) = false ∧ Instr.wellFormed (.perm .ip 10) = true := by decide

theorem test_wellFormed_rotl_lenA : Instr.wellFormed (.rotl 0 0) = false ∧
    Instr.wellFormed (.rotl 11 0) = false ∧ Instr.wellFormed (.rotl 1 0) = true := by decide

theorem test_wellFormed_rotl_amount : Instr.wellFormed (.rotl 5 16) = false ∧
    Instr.wellFormed (.rotl 5 15) = true := by decide

theorem test_wellFormed_xor_lenA : Instr.wellFormed (.xor 0 8) = false ∧
    Instr.wellFormed (.xor 11 8) = false := by decide

theorem test_wellFormed_xor_lenB : Instr.wellFormed (.xor 8 0) = false ∧
    Instr.wellFormed (.xor 8 11) = false ∧ Instr.wellFormed (.xor 8 10) = true := by decide

/-! ## Decoding: words written bit by bit from 30_encoding R100 to R105, as RSV, N, LENB, LENA, SEL, OP -/

theorem test_decode_nop : decode 0b000000000000_0000_0000_0000_0000_0000#32 = .ok .nop := by decide
theorem test_decode_keysched : decode 0b000000000000_0000_0000_0000_0000_0001#32 = .ok .keysched := by decide
theorem test_decode_encrypt : decode 0b000000000000_0000_0000_0000_0000_0010#32 = .ok .encrypt := by decide
theorem test_decode_decrypt : decode 0b000000000000_0000_0000_0000_0000_0011#32 = .ok .decrypt := by decide
theorem test_decode_ipinv : decode 0b000000000000_0000_0000_0000_0000_0100#32 = .ok .ipinv := by decide
theorem test_decode_round : decode 0b000000000000_0000_0000_0000_0000_0101#32 = .ok .round := by decide
theorem test_decode_swap : decode 0b000000000000_0000_0000_0000_0000_0110#32 = .ok .swap := by decide

theorem test_decode_perm :
    decode 0b000000000000_0000_0000_1000_0010_0111#32 = .ok (.perm .ip 8) ∧
    decode 0b000000000000_0000_0000_1000_0101_0111#32 = .ok (.perm .ipInv 8) := by decide

theorem test_decode_perm_sel :
    decode 0x00000A07 = .ok (.perm .p10 10) ∧ decode 0x00000A17 = .ok (.perm .p8 10) ∧
    decode 0x00000437 = .ok (.perm .ep 4) ∧ decode 0x00000447 = .ok (.perm .p4 4) := by decide

theorem test_decode_rotl :
    decode 0b000000000000_0001_0000_0101_0000_1000#32 = .ok (.rotl 5 1) ∧
    decode 0b000000000000_1111_0000_1010_0000_1000#32 = .ok (.rotl 10 15) := by decide

theorem test_decode_xor :
    decode 0b000000000000_0000_1000_1000_0000_1001#32 = .ok (.xor 8 8) ∧
    decode 0b000000000000_0000_1010_1001_0000_1001#32 = .ok (.xor 9 10) ∧
    decode 0x00004809 = .ok (.xor 8 4) := by decide

theorem test_decode_sbox :
    decode 0b000000000000_0000_0000_0000_0000_1010#32 = .ok (.sbox .s0) ∧
    decode 0b000000000000_0000_0000_0000_0001_1010#32 = .ok (.sbox .s1) := by decide

/-- The illegal words of 95_test_vectors section 2.11, each refused. -/
theorem test_decode_illegal :
    ([0xB, 0xF, 0x00100002, 0x80000000, 0x10, 0x1000, 0x10000, 0x12, 0x601, 0x100, 0x7, 0x17, 0xB07] ++
      [0xC07, 0x67, 0xA67, 0xA007, 0x8, 0xB08, 0x9, 0xAA009, 0x10009, 0x2A, 0x3A, 0x10A]).all
      (fun w => (decodeTableWord 32 w).isNone) = true := by decide

/-- The decoder names the reason. -/
theorem test_decode_reasons :
    decode 0xB = .error .reservedOpcode ∧ decode 0x00100002 = .error .reservedBitsSet ∧
    decode 0x12 = .error .unusedFieldSet ∧ decode 0xA67 = .error .selectorOutOfRange ∧
    decode 0xB07 = .error .lenAOutOfRange ∧ decode 0xB809 = .error .lenBOutOfRange := by decide

/-- A row's word that needs more than 32 bits is no command. -/
theorem test_decodeTableWord_wide : decodeTableWord 40 0x100000002 = none ∧
    decodeTableWord 32 0x00000827 = some (.perm .ip 8) := by decide

/-! ## One command from reset: vectors of 95_test_vectors section 2 -/

/-- The registers `rs` after the command word `w` ran from reset with the input registers at `x`. -/
def after (x : Inputs) (w : Nat) (rs : List Reg) : List Word :=
  match step (State.withFetchWord { State.reset with inputs := x } 32 w) with
  | .next t => rs.map t.readReg
  | .fault _ => []
  | .refused _ => []

/-- Section 2.1: the P10 stage of the canonical key, and the err 1/1 row. -/
theorem test_perm_p10 :
    after { Inputs.reset with opa := 0x282 } 0xA07 [.res, .status] = [0x20C, 0xA002] ∧
    after { Inputs.reset with opa := 0x282 } 0x607 [.res, .status] = [0, 0x116] := by decide

/-- Section 2.1: EP over OPA[9:6], and the err 1/6 row of the derived inverse. -/
theorem test_perm_ep_ipInv :
    after { Inputs.reset with opa := 0x3C0 } 0xA37 [.res, .status] = [0xFF, 0x8002] ∧
    after { Inputs.reset with opa := 0x07E } 0x757 [.res, .status] = [0, 0x616] := by decide

/-- Section 2.2: a rotation, and N > LENA. -/
theorem test_rotl :
    after { Inputs.reset with opa := 0x282 } 0x30A08 [.res, .status] = [0x015, 0xA002] ∧
    after { Inputs.reset with opa := 0x10 } 0x60508 [.res, .status] = [0, 0x36] := by decide

/-- Section 2.2: N equal to LENA. -/
theorem test_rotl_full : after { Inputs.reset with opa := 0x10 } 0x50508 [.res, .status] = [0x10, 0x5002] := by
  decide

/-- Section 2.3: bits above the width are ignored, and LENA ≠ LENB. -/
theorem test_xor :
    after { Inputs.reset with opa := 0x3FF } 0x4409 [.res, .status] = [0x00F, 0x4002] ∧
    after { Inputs.reset with opa := 0x7D, opb := 0xA4 } 0x4809 [.res, .status] = [0, 0x26] := by decide

/-- Section 2.4: an entry that differs between the boxes; the row is the outer bits. -/
theorem test_sbox :
    after { Inputs.reset with opa := 0x009 } 0xA [.res, .status] = [0x3, 0x2002] ∧
    after { Inputs.reset with opa := 0x009 } 0x1A [.res, .status] = [0x2, 0x2002] := by decide

/-- Section 2.5: the canonical key, and the err 1/2 row. -/
theorem test_keysched :
    after { Inputs.reset with key := 0x282 } 0x1 [.k1, .k2, .status] = [0xA4, 0x43, 0x2] ∧
    after { Inputs.reset with key := 0x282, p8 := 0x9A58473F } 0x1 [.k1, .k2, .status] = [0, 0, 0x216] := by
  decide

/-- Section 2.6: round 1 of the canonical example, and the err 1/4 row. -/
theorem test_round :
    after { Inputs.reset with opa := 0x7E, opb := 0xA4 } 0x5 [.res, .status] = [0xCE, 0x8002] ∧
    after { Inputs.reset with opa := 0x7E, opb := 0xA4, ep := 0x14323210 } 0x5 [.res, .status] =
      [0, 0x416] := by decide

/-- Section 2.7: OPA[9:8] are ignored. -/
theorem test_swap : after { Inputs.reset with opa := 0x3A5 } 0x6 [.res, .status] = [0x5A, 0x8002] := by decide

/-- Section 2.7: the default IP, and a repeated entry. -/
theorem test_ipinv :
    after Inputs.reset 0x4 [.ipinv, .status] = [0x68275314, 0x2] ∧
    after { Inputs.reset with ip := 0x75841366 } 0x4 [.ipinv, .status] = [0, 0x316] := by decide

/-- Section 2.7: NOP after a failed command leaves ERR. -/
theorem test_nop :
    (match exec .nop (State.failed State.reset 1 1) with
      | .next t => t.readReg .status
      | _ => 0) = 0x00000006 := by decide

set_option maxRecDepth 8000 in
/-- Section 2.8: the canonical example. -/
theorem test_encrypt :
    after { Inputs.reset with key := 0x282, din := 0xBD } 0x2 [.dout, .k1, .k2, .ipinv, .status] =
      [0x75, 0xA4, 0x43, 0x68275314, 0x2] := by decide

set_option maxRecDepth 8000 in
/-- Section 1.3: P10 contains 11. -/
theorem test_encrypt_bad_p10 :
    after { Inputs.reset with key := 0x282, din := 0xBD, p10a := 0x91A4725B } 0x2
      [.dout, .k1, .k2, .ipinv, .status] = [0, 0, 0, 0, 0x116] := by decide

set_option maxRecDepth 8000 in
/-- Section 2.9: the canonical example back, the subkeys not exchanged; and the err 1/5 row. -/
theorem test_decrypt :
    after { Inputs.reset with key := 0x282, din := 0x75 } 0x3 [.dout, .k1, .k2, .ipinv, .status] =
      [0xBD, 0xA4, 0x43, 0x68275314, 0x2] ∧
    after { Inputs.reset with key := 0x282, p4 := 0x1111 } 0x3 [.dout, .status] = [0, 0x516] := by decide

/-- Section 2.11: an illegal word ends with STATUS 0x46 and stands in CMD. -/
theorem test_illegal : after Inputs.reset 0xB [.cmd, .status] = [0xB, 0x46] := by decide

/-! ## Bus accesses: section 2.12, and sequences of section 2.13 -/

/-- One access from reset: the reply, and the register `r` after it. -/
def access (s : State) (o : Nat) (a : BusAccess) (r : Reg) : BusReply × Word :=
  ((busAccess s o a).1, (busAccess s o a).2.readReg r)

theorem test_bus_reads :
    (busRead State.reset 0x00 4, busRead State.reset 0x34 4, busRead State.reset 0x50 4) =
      (⟨.okay, 0x53444553⟩, ⟨.okay, 0x91A47253⟩, ⟨.okay, 0xC613D2E4⟩) ∧
    busRead State.reset 0x54 4 = ⟨.error, 0⟩ ∧ busRead State.reset 0xFC 4 = ⟨.error, 0⟩ ∧
    busRead State.reset 0x00 2 = ⟨.error, 0⟩ ∧ busRead State.reset 0x02 4 = ⟨.error, 0⟩ := by decide

theorem test_bus_writes :
    access State.reset 0x10 (.write 0x10 4 0xFFFFFFFF) .key = (⟨.okay, 0⟩, 0x3FF) ∧
    access State.reset 0x48 (.write 0x48 4 0xFFFFFFFF) .p4 = (⟨.okay, 0⟩, 0xFFFF) ∧
    access State.reset 0x18 (.write 0x18 4 5) .status = (⟨.error, 0⟩, 0) ∧
    access State.reset 0x10 (.write 0x10 1 0x12) .key = (⟨.error, 0⟩, 0) ∧
    access State.reset 0x04 (.write 0x04 4 3) .ctrl = (⟨.okay, 0⟩, 1) := by decide

theorem test_byte_lanes :
    (byteLane idValue 0, byteLane idValue 1, byteLane idValue 2, byteLane idValue 3) =
      (0x53, 0x45, 0x44, 0x53) := by decide

/-- An engine busy with ENCRYPT of the canonical block, `n` cycles left, the interrupt enabled. -/
def busy (n : Nat) : State :=
  { State.reset with
    irqen := true
    cmd := 2
    status := Status.reset.accept
    inputs := { Inputs.reset with key := 0x282, din := 0xBD }
    count := n }

/-- Section 2.13, steps 3 to 5. -/
theorem test_busy_accesses :
    access (busy 5) 0x14 (.write 0x14 4 0x55) .din = (⟨.error, 0⟩, 0xBD) ∧
    access (busy 5) 0x14 (.write 0x14 4 0x55) .status = (⟨.error, 0⟩, 0x9) ∧
    access (busy 5) 0x08 (.write 0x08 4 3) .cmd = (⟨.error, 0⟩, 2) ∧
    busRead (busy 5) 0x18 4 = ⟨.okay, 0⟩ := by decide

set_option maxRecDepth 8000 in
/-- Section 2.13, step 6: the completion, and irq. -/
theorem test_completion :
    (match step { busy 1 with status := { (busy 1).status with bviol := true } } with
      | .next t => (t.readReg .status, t.irq, t.readReg .dout)
      | _ => (0, false, 0)) = (0xA, true, 0x75) := by decide

/-- Section 2.13, the second list: after ROTL 5, 6 RESLEN is still 5; clear_status leaves it. -/
theorem test_clear_status :
    access { State.reset with status := { Status.reset with done := true, err := true, ecode := 3, reslen := 5 } }
      0x0C (.write 0x0C 4 0xFFFFFFFF) .status = (⟨.okay, 0⟩, 0x5030) := by decide

/-- Section 1.4: the shift composition example. -/
theorem test_rotation_composition :
    rotL (0x2AA#10) 3 = .ok 0x155 ∧
    (rotL (0x2AA#10) 7 >>= fun u => rotL u 6) = .ok 0x155 := by decide

/-! ## Witnesses: what meets the hypotheses of each obligation that has some -/

/-- The default tables are legal. -/
theorem test_reset_tables_legal : State.reset.inputs.tablesLegal := by
  simp only [Inputs.tablesLegal, ← inRange_iff, ← noRepeats_iff]
  decide

theorem test_bad_p10 : ¬ entriesWithin 10 { Inputs.reset with p10a := 0x91A4725B }.tableP10 := by
  rw [← inRange_iff]; decide

theorem test_bad_ip_range : ¬ (entriesWithin 8 { Inputs.reset with ip := 0 }.tableIp ∧
    { Inputs.reset with ip := 0 }.tableIp.Nodup) := by
  rw [← inRange_iff, ← noRepeats_iff]; decide

theorem test_bad_ip_repeat : ¬ (entriesWithin 8 { Inputs.reset with ip := 0x75841366 }.tableIp ∧
    { Inputs.reset with ip := 0x75841366 }.tableIp.Nodup) := by
  rw [← inRange_iff, ← noRepeats_iff]; decide

theorem test_bad_ep : ¬ entriesWithin 4 { Inputs.reset with ep := 0x14323210 }.tableEp := by
  rw [← inRange_iff]; decide

/-- A legal EP beside a P4 that is no permutation. -/
theorem test_bad_p4 : entriesWithin 4 { Inputs.reset with p4 := 0x1111 }.tableEp ∧
    ¬ (entriesWithin 4 { Inputs.reset with p4 := 0x1111 }.tableP4 ∧
      { Inputs.reset with p4 := 0x1111 }.tableP4.Nodup) := by
  rw [← inRange_iff, ← inRange_iff, ← noRepeats_iff]; decide

/-- DecodeReadsBackEveryEncodedCommand and PlacedCommandRunsNext: well-formed commands at the ends of
their fields. -/
theorem test_witness_wellFormed :
    Instr.wellFormed (.perm .ipInv 1) = true ∧ Instr.wellFormed (.perm .p10 10) = true ∧
    Instr.wellFormed (.rotl 1 0) = true ∧ Instr.wellFormed (.rotl 10 15) = true ∧
    Instr.wellFormed (.xor 1 10) = true ∧ Instr.wellFormed (.xor 10 1) = true ∧
    Instr.wellFormed (.sbox .s1) = true ∧ Instr.wellFormed .nop = true := by decide

/-- IllegalWordsAreTheListedOnes: the numeral of a legal word and of an illegal one. -/
theorem test_witness_word_numeral :
    (0x000F0A08#32).toNat = 8 + 16 * 0 + 256 * 10 + 4096 * 0 + 65536 * 15 + 1048576 * 0 ∧
    (0x80000000#32).toNat = 0 + 16 * 0 + 256 * 0 + 4096 * 0 + 65536 * 0 + 1048576 * 2048 := by decide

/-- PermuteGathersNamedPositions: both clauses, at the ends of the range. -/
theorem test_witness_permute : entriesWithin 4 [1, 4] ∧ ¬ entriesWithin 4 [5] ∧ ¬ entriesWithin 4 [0] := by
  simp [entriesWithin]

/-- RotationMovesLeadingCharacters, RotationsCompose, RotlRotatesOrRaisesDomainError: both sides of k = L. -/
theorem test_witness_rotation : (0 ≤ 10 ∧ 10 ≤ 10 ∧ 10 < 11) ∧ (1 ≤ 1 ∧ 1 ≤ 10 ∧ 1 ≤ 1 ∧ 1 < 2) := by decide

/-- XorUnitLaws, XorCombinesOrRaisesLengthMismatch: equal and unequal widths. -/
theorem test_witness_xor : (1 ≤ 10 ∧ 10 ≤ 10 ∧ 10 = 10) ∧ (1 ≤ 1 ∧ 1 ≤ 10 ∧ 1 ≠ 10) := by decide

/-- RoundIsItsOwnInverse: round 1 of the canonical example. -/
theorem test_witness_round : feistelRound 0x7E 0xA4 Inputs.reset.roundTables = .ok 0xCE := by decide

/-- IpInverseInvertsIp, IpinvPacksTheInverse, PermAppliesTheDerivedInverse: a legal IP with a width of 8
and of 7, and illegal IPs. -/
theorem test_witness_ip :
    (entriesWithin 8 State.reset.inputs.tableIp ∧ State.reset.inputs.tableIp.Nodup ∧ 8 ≤ 8 ∧ 7 < 8) ∧
    ¬ (entriesWithin 8 { Inputs.reset with ip := 0x75841366 }.tableIp ∧
      { Inputs.reset with ip := 0x75841366 }.tableIp.Nodup) :=
  ⟨⟨test_reset_tables_legal.2.2.1.1, test_reset_tables_legal.2.2.1.2, by decide, by decide⟩, test_bad_ip_repeat⟩

/-- SboxLooksUpSelectedEntry: row 2, column 3 for OPA = 0xE (95_test_vectors section 2.4). -/
theorem test_witness_sbox :
    2 = 2 * ((State.reset.writeInput .opa 0xE).inputs.opa.getLsbD 3).toNat +
      ((State.reset.writeInput .opa 0xE).inputs.opa.getLsbD 0).toNat ∧
    3 = 2 * ((State.reset.writeInput .opa 0xE).inputs.opa.getLsbD 2).toNat +
      ((State.reset.writeInput .opa 0xE).inputs.opa.getLsbD 1).toNat := by decide

/-- PermAppliesARegisterTable: P4 over 4 and 3 bits, P10 over 10 and 9 bits. -/
theorem test_witness_perm :
    (entriesWithin 4 Inputs.reset.tableP4 ∧ ¬ entriesWithin 3 Inputs.reset.tableP4) ∧
    (entriesWithin 10 Inputs.reset.tableP10 ∧ ¬ entriesWithin 9 Inputs.reset.tableP10) := by
  simp only [← inRange_iff]; decide

/-- KeyschedIsTheStringSchedule, ConstantKeysGiveConstantSubkeys: the default tables with each key. -/
theorem test_witness_keysched :
    (entriesWithin 10 State.reset.inputs.tableP10 ∧ entriesWithin 10 State.reset.inputs.tableP8 ∧
      State.reset.inputs.key = 0) ∧
    (entriesWithin 10 (State.reset.writeInput .key 0x3FF).inputs.tableP10 ∧
      entriesWithin 10 (State.reset.writeInput .key 0x3FF).inputs.tableP8 ∧
      (State.reset.writeInput .key 0x3FF).inputs.key = 0x3FF) := by
  simp only [← inRange_iff]; decide

/-- RoundIsTheStringRound: its three clauses. -/
theorem test_witness_round_clauses :
    (entriesWithin 4 State.reset.inputs.tableEp ∧ entriesWithin 4 State.reset.inputs.tableP4 ∧
      State.reset.inputs.tableP4.Nodup) ∧
    ¬ entriesWithin 4 { Inputs.reset with ep := 0x14323210 }.tableEp ∧
    (entriesWithin 4 { Inputs.reset with p4 := 0x1111 }.tableEp ∧
      ¬ (entriesWithin 4 { Inputs.reset with p4 := 0x1111 }.tableP4 ∧
        { Inputs.reset with p4 := 0x1111 }.tableP4.Nodup)) :=
  ⟨⟨test_reset_tables_legal.2.2.2.1, test_reset_tables_legal.2.2.2.2⟩, test_bad_ep, test_bad_p4⟩

/-- EncryptIsTheStringCipher, DecryptIsTheReversedStringCipher, EncryptAndDecryptUndoEachOther. -/
theorem test_witness_cipher : (busy 1).inputs.tablesLegal := test_reset_tables_legal

/-- CommandsReportTheFirstFailingCheck: the first of two bad tables, a mismatch, an excess rotation, a bad
IP before the width for the derived inverse; and commands whose checks pass. -/
theorem test_witness_first_error :
    firstError .encrypt { Inputs.reset with p8 := 0, ip := 0 } = some (.configuration .p8) ∧
    firstError .round { Inputs.reset with ep := 0, p4 := 0 } = some (.configuration .ep) ∧
    firstError (.xor 8 4) Inputs.reset = some .lengthMismatch ∧
    firstError (.rotl 10 11) Inputs.reset = some .domain ∧
    firstError (.perm .ipInv 7) { Inputs.reset with ip := 0 } = some (.configuration .ip) ∧
    firstError (.perm .ipInv 7) Inputs.reset = some (.configuration .ipInv) ∧
    firstError (.rotl 10 10) Inputs.reset = none ∧ firstError .decrypt Inputs.reset = none := by decide

/-- CommandsWriteOnlyTheirOutputs: a success without RES, a success with it, and an error. -/
theorem test_witness_frame :
    (∃ t : State, exec .keysched State.reset = .next t ∧ t.status.ecode = 0 ∧ resultWidth .keysched = none) ∧
    (∃ t : State, exec .swap State.reset = .next t ∧ t.status.ecode = 0) ∧
    (∃ t : State, exec (.xor 1 2) State.reset = .next t ∧ t.status.ecode ≠ 0) :=
  ⟨⟨_, rfl, rfl, rfl⟩, ⟨_, rfl, rfl⟩, ⟨_, rfl, by decide⟩⟩

/-- CommandsHaveNoHistory: equal inputs beside different outputs and STATUS. -/
theorem test_witness_history :
    (State.failed State.reset 1 3).inputs = State.reset.inputs ∧
    State.failed State.reset 1 3 ≠ State.reset := by decide

/-- BadAccessesChangeNothing: each reason alone, and a read-only register. -/
theorem test_witness_bad_access :
    (2 ≠ 4 ∧ 0x10 % 4 = 0) ∧ (0x12 % 4 ≠ 0) ∧ (0x54 ≤ 0x54 ∧ 0x54 % 4 = 0) ∧
    0x30 ∈ [0x00, 0x18, 0x1C, 0x20, 0x24, 0x30] := by decide

/-- InputWritesReadBack, IdleCmdWriteIsAccepted, CommandCompletesAfterItsLatency: an idle engine. -/
theorem test_witness_idle : State.reset.status.busy = false ∧ Reg.access .key = .input ∧ Reg.access .s1 = .input := by
  decide

/-- BusyWritesAreDiscarded: a busy engine. -/
theorem test_witness_busy : (busy 5).status.busy = true ∧ Reg.s1 ∈ [Reg.cmd, .s1] := by decide

/-- `s` with a host write of `v` at offset `o` in this cycle. -/
def hostWrites (s : State) (o : Nat) (v : Word) : State :=
  { s with inbox := [.access (.write (Config.sdesBase + o) 4 v)] }

/-- `s` with reset asserted in this cycle. -/
def hostResets (s : State) : State :=
  { s with inbox := [.reset] }

theorem test_hostWrites_event (s : State) (o : Nat) (v : Word) (h : o < 256) :
    (hostWrites s o v).event = .access (.write (Config.sdesBase + o) 4 v) ∧
    windowOffset (BusAccess.write (Config.sdesBase + o) 4 v).addr = some o :=
  ⟨rfl, windowOffset_base h⟩

theorem test_hostWrites_step (s : State) (o : Nat) (v : Word) (h : o < 256) :
    step (hostWrites s o v) =
      engineCycle s.status.busy ((hostWrites s o v).afterAccess o (.write (Config.sdesBase + o) 4 v)) :=
  step_access (test_hostWrites_event s o v h).1 (test_hostWrites_event s o v h).2

/-- An idle engine's step with a host write answers a next state. -/
theorem test_hostWrites_idle (s : State) (o : Nat) (v : Word) (h : o < 256) (hb : s.status.busy = false) :
    ∃ t : State, step (hostWrites s o v) = .next t := by
  rw [test_hostWrites_step s o v h, hb]
  exact ⟨_, rfl⟩

theorem test_hostWrites_register (s : State) (r : Reg) (v : Word) :
    (hostWrites s r.offset v).writesNow = some (r, v) := by
  have h : r.offset < 256 := by cases r <;> decide
  have hw := windowOffset_base h
  simp [State.writesNow, hostWrites, State.event, hw, target_offset]

/-- StepRunsTheAcceptedCommand: a command in its last cycle, without and with an access. -/
theorem test_witness_completion_cycle :
    (decode (busy 1).cmd = .ok .encrypt ∧ (busy 1).status.busy = true ∧ (busy 1).count ≤ 1 ∧
      (busy 1).event = .idle) ∧
    (decode (hostWrites (busy 1) 0x0C 2).cmd = .ok .encrypt ∧
      (hostWrites (busy 1) 0x0C 2).status.busy = true ∧ (hostWrites (busy 1) 0x0C 2).count ≤ 1 ∧
      (hostWrites (busy 1) 0x0C 2).event = .access (.write (Config.sdesBase + 0x0C) 4 2) ∧
      windowOffset (Config.sdesBase + 0x0C) = some 0x0C) :=
  ⟨by decide, by decide, by decide, by decide, rfl, windowOffset_base (by decide)⟩

/-- StepPerformsTheAccess: an access of an idle engine, and of one busy with two cycles left. -/
theorem test_witness_access_cycle :
    ((hostWrites State.reset 0x10 1).event = .access (.write (Config.sdesBase + 0x10) 4 1) ∧
      windowOffset (Config.sdesBase + 0x10) = some 0x10 ∧
      (hostWrites State.reset 0x10 1).status.busy = false) ∧
    ((hostWrites (busy 2) 0x10 1).event = .access (.write (Config.sdesBase + 0x10) 4 1) ∧
      (hostWrites (busy 2) 0x10 1).status.busy = true ∧ 1 < (hostWrites (busy 2) 0x10 1).count) :=
  ⟨⟨rfl, windowOffset_base (by decide), rfl⟩, rfl, rfl, by decide⟩

/-- The statements about every step: a reset cycle. -/
theorem test_witness_step_reset :
    ∃ t : State, step (hostResets (busy 5)) = .next t ∧ (hostResets (busy 5)).resetsNow = true ∧
      (hostResets (busy 5)).inbox.tail = [] :=
  ⟨_, rfl, rfl, rfl⟩

/-- The statements about every step: an acceptance. -/
theorem test_witness_step_accepts :
    (∃ t : State, step (hostWrites State.reset 0x08 2) = .next t) ∧
    (hostWrites State.reset 0x08 2).acceptsNow = some 2 := by
  refine ⟨test_hostWrites_idle _ _ _ (by decide) rfl, ?_⟩
  have h := test_hostWrites_register State.reset .cmd 2
  have e : hostWrites State.reset Reg.cmd.offset 2 = hostWrites State.reset 0x08 2 := rfl
  rw [e] at h
  simp only [State.acceptsNow, h]
  rfl

/-- The statements about every step: an input write. -/
theorem test_witness_step_input :
    (∃ t : State, step (hostWrites State.reset 0x10 5) = .next t) ∧
    (hostWrites State.reset 0x10 5).inputWriteNow = some (.key, 5) := by
  refine ⟨test_hostWrites_idle _ _ _ (by decide) rfl, ?_⟩
  have h := test_hostWrites_register State.reset .key 5
  have e : hostWrites State.reset Reg.key.offset 5 = hostWrites State.reset 0x10 5 := rfl
  rw [e] at h
  simp only [State.inputWriteNow, h]
  rfl

/-- The statements about every step: a discarded write of a busy engine. -/
theorem test_witness_step_discards :
    (∃ t : State, step (hostWrites (busy 5) 0x14 0x55) = .next t) ∧
    (hostWrites (busy 5) 0x14 0x55).discardsNow = true := by
  have h := test_hostWrites_register (busy 5) .din 0x55
  have e : hostWrites (busy 5) Reg.din.offset 0x55 = hostWrites (busy 5) 0x14 0x55 := rfl
  rw [e] at h
  refine ⟨?_, by simp only [State.discardsNow, h]; rfl⟩
  rw [test_hostWrites_step _ _ _ (by decide)]
  exact ⟨_, rfl⟩

/-- The statements about every step: a completion that succeeds, one with an error of its checks, one of
an illegal word. -/
theorem test_witness_step_completes :
    (∃ t : State, step { busy 1 with cmd := 0x6 } = .next t ∧ ({ busy 1 with cmd := 0x6 } : State).completesNow = true ∧
      ({ busy 1 with cmd := 0x6 } : State).pendingError = none) ∧
    (∃ t : State, step { busy 1 with cmd := 0x4809 } = .next t ∧
      ({ busy 1 with cmd := 0x4809 } : State).pendingError = some .lengthMismatch) ∧
    (∃ t : State, step { busy 1 with cmd := 0xB } = .next t ∧
      ({ busy 1 with cmd := 0xB } : State).pendingError = some .illegalCommand) :=
  ⟨⟨_, rfl, rfl, rfl⟩, ⟨_, rfl, rfl⟩, ⟨_, rfl, rfl⟩⟩

/-- An engine with DONE set, idle; `irqen` says whether its interrupt is enabled. -/
def finished (irqen : Bool) : State :=
  { State.reset with irqen := irqen, status := { Status.reset with done := true } }

/-- IrqRisesAtCompletionOrEnable: a rise at a completion, and one at a write of IRQEN with DONE set. -/
theorem test_witness_irq_rises :
    (∃ t : State, step { busy 1 with cmd := 0 } = .next t ∧ ({ busy 1 with cmd := 0 } : State).irq = false ∧
      t.irq = true ∧ ({ busy 1 with cmd := 0 } : State).completesNow = true ∧ t.irqen = true) ∧
    (∃ t : State, step (hostWrites (finished false) 0x04 1) = .next t ∧ (finished false).irq = false ∧
      t.irq = true ∧ (hostWrites (finished false) 0x04 1).writesNow = some (.ctrl, 1) ∧
      (hostWrites (finished false) 0x04 1).status.done = true) := by
  refine ⟨⟨_, rfl, rfl, rfl, rfl, rfl⟩, ?_⟩
  rw [test_hostWrites_step _ _ _ (by decide)]
  exact ⟨_, rfl, rfl, rfl, test_hostWrites_register _ .ctrl 1, rfl⟩

/-- IrqFallsOnlyByClearAcceptDisableReset: a fall at a clearing of DONE, an acceptance, a disabling, a
reset. -/
theorem test_witness_irq_falls :
    (finished true).irq = true ∧
    (∃ t : State, step (hostWrites (finished true) 0x0C 2) = .next t ∧ t.irq = false) ∧
    (∃ t : State, step (hostWrites (finished true) 0x08 0) = .next t ∧ t.irq = false) ∧
    (∃ t : State, step (hostWrites (finished true) 0x04 0) = .next t ∧ t.irq = false) ∧
    (∃ t : State, step (hostResets (finished true)) = .next t ∧ t.irq = false) := by
  refine ⟨rfl, ?_, ?_, ?_, ⟨_, rfl, rfl⟩⟩ <;> rw [test_hostWrites_step _ _ _ (by decide)] <;>
    exact ⟨_, rfl, rfl⟩

/-- IrqFallsOnlyByClearAcceptDisableReset: the hypotheses of its clauses hold in those steps. -/
theorem test_witness_irq_falls_clauses :
    ((hostWrites (finished true) 0x0C 2).clearsNow 1 = true ∧
      (hostWrites (finished true) 0x0C 2).completesNow = false) ∧
    (hostWrites (finished true) 0x08 0).acceptsNow = some 0 ∧
    (hostWrites (finished true) 0x04 0).writesNow = some (.ctrl, 0) ∧
    (hostResets (finished true)).resetsNow = true := by
  have h1 := test_hostWrites_register (finished true) .status 2
  have h2 := test_hostWrites_register (finished true) .cmd 0
  have e1 : hostWrites (finished true) Reg.status.offset 2 = hostWrites (finished true) 0x0C 2 := rfl
  have e2 : hostWrites (finished true) Reg.cmd.offset 0 = hostWrites (finished true) 0x08 0 := rfl
  rw [e1] at h1
  rw [e2] at h2
  refine ⟨⟨?_, rfl⟩, ?_, test_hostWrites_register _ .ctrl 0, rfl⟩
  · simp only [State.clearsNow, h1]
    rfl
  · simp only [State.acceptsNow, h2]
    rfl

/-- OutputsChangeOnlyAtCompletion, CountFallsOncePerBusyCycle, LegalReadsReturnTheRegister: a busy cycle that leaves the engine busy. -/
theorem test_witness_step_busy :
    ∃ t : State, step (busy 2) = .next t ∧ (busy 2).status.busy = true ∧ t.status.busy = true ∧
      t.count = 1 ∧ (busy 2).resetsNow = false ∧ (busy 2).completesNow = false :=
  ⟨_, rfl, rfl, rfl, rfl, rfl, rfl⟩

/-- StepStopsOnlyOutsideTheWindow: an access one byte past the window stops. -/
theorem test_witness_outside :
    step { State.reset with inbox := [.access (.read (Config.sdesBase + 256) 4)] } = .fault .outsideWindow := by
  have h : windowOffset (Config.sdesBase + 256) = none := windowOffset_eq_none.2 (by omega)
  exact step_outside (a := .read (Config.sdesBase + 256) 4) rfl h

/-- CommandCompletesAfterItsLatency, IllegalWordCompletesWithIllegalCommand: a legal word and an illegal one. -/
theorem test_witness_latency :
    (State.reset.status.busy = false ∧
      (hostWrites State.reset 8 2).inbox = [.access (.write (Config.sdesBase + 8) 4 2)] ∧
      decode 2 = .ok .encrypt) ∧
    (hostWrites State.reset 8 0xB).inbox = [.access (.write (Config.sdesBase + 8) 4 0xB)] ∧
    decode 0xB = .error .reservedOpcode :=
  ⟨⟨rfl, rfl, by decide⟩, rfl, by decide⟩

/-- RunningCommandIgnoresTheHost: a running command, a discarded write and a read on their way. -/
theorem test_witness_running :
    ∃ s : State, s.status.busy = true ∧ 0 < s.count ∧ decode s.cmd = .ok .encrypt ∧ s.inbox.length = 3 ∧
      ∀ e ∈ s.inbox, e ≠ .reset ∧ ∀ a : BusAccess, e = .access a → (windowOffset a.addr).isSome = true := by
  refine ⟨{ busy 5 with inbox := [.access (.write (Config.sdesBase + 0x14) 4 0x55), .idle,
    .access (.read (Config.sdesBase + 0x0C) 4)] }, rfl, by decide, by decide, rfl, ?_⟩
  have h1 : windowOffset (Config.sdesBase + 0x14) = some 0x14 := windowOffset_base (by decide)
  have h2 : windowOffset (Config.sdesBase + 0x0C) = some 0x0C := windowOffset_base (by decide)
  simp [BusAccess.addr, h1, h2]

/-- StepKeepsTheInvariant: an idle and a busy state that meet it, each with a next state. -/
theorem test_witness_invariant :
    (State.reset.Inv ∧ ∃ t : State, step State.reset = .next t) ∧
    (({ busy 1 with cmd := 6 } : State).Inv ∧ ∃ t : State, step { busy 1 with cmd := 6 } = .next t) :=
  ⟨⟨by unfold State.Inv; decide, _, rfl⟩, by unfold State.Inv; decide, _, rfl⟩

end Sys2Proof.Machine.Tests
end

/-! ## Proofs: what a command computes, apart from the state it completes in -/

namespace Sys2Proof.Machine

/-! ### A command as a result over the input registers -/

/-- What a successful command writes to the output registers; `none` where it writes nothing. A result
comes with its width. -/
structure OutputWrites where
  dout : Option (BitVec 8) := none
  subkeys : Option (BitVec 8 × BitVec 8) := none
  ipinv : Option (BitVec 32) := none
  result : Option (Nat × BitVec 10) := none

/-- The output registers and RESLEN after the writes of a command. -/
def State.applyWrites (s : State) (w : OutputWrites) : State :=
  { s with
    outputs :=
      { dout := w.dout.getD s.outputs.dout
        k1 := (w.subkeys.map Prod.fst).getD s.outputs.k1
        k2 := (w.subkeys.map Prod.snd).getD s.outputs.k2
        ipinv := w.ipinv.getD s.outputs.ipinv
        res := (w.result.map Prod.snd).getD s.outputs.res }
    status :=
      { s.status with
        reslen := ((w.result.map Prod.fst).map (BitVec.ofNat 4)).getD s.status.reslen } }

/-- The writes of ENCRYPT and DECRYPT (45_cipher_engine R223, R224). -/
def CipherResult.writes (r : CipherResult) : OutputWrites where
  dout := some r.block
  subkeys := some (r.k1, r.k2)
  ipinv := some (packTable r.inv)

/-- What a command ends with, as a function of its fields and the input registers (10_state R59). -/
def commandResult (i : Instr) (x : Inputs) : Except CmdError OutputWrites :=
  match i with
  | .nop => .ok {}
  | .keysched => (keyschedResult x).map fun k => { subkeys := some k }
  | .encrypt => (encryptResult x).map CipherResult.writes
  | .decrypt => (decryptResult x).map CipherResult.writes
  | .ipinv => (ipInverse x).map fun inv => { ipinv := some (packTable inv) }
  | .round => (roundResult x).map fun b => { result := some (8, b.setWidth 10) }
  | .swap => .ok { result := some (8, (swapHalves (x.operandA 8)).setWidth 10) }
  | .perm table lenA => (permResult x table lenA).map fun r => { result := some r }
  | .rotl lenA n => (rotlResult x lenA n).map fun v => { result := some (lenA, v) }
  | .xor lenA lenB => (xorResult x lenA lenB).map fun v => { result := some (lenA, v) }
  | .sbox box => .ok { result := some (2, (sboxLookup (x.operandA 4) (x.sboxReg box)).setWidth 10) }

theorem complete_map {α β : Type} (s : State) (r : Except CmdError α) (f : α → β)
    (write : State → β → State) :
    complete s (r.map f) write = complete s r fun s a => write s (f a) := by
  cases r with
  | ok a => rfl
  | error e => rfl

/-- Every command is the completion with its result: the state enters only where the writes land. -/
theorem exec_eq_complete (i : Instr) (s : State) :
    exec i s = complete s (commandResult i s.inputs) State.applyWrites := by
  cases i with
  | nop => rfl
  | keysched => rw [commandResult, complete_map]; rfl
  | encrypt => rw [commandResult, complete_map]; rfl
  | decrypt => rw [commandResult, complete_map]; rfl
  | ipinv => rw [commandResult, complete_map]; rfl
  | round => rw [commandResult, complete_map]; rfl
  | swap => rfl
  | perm table lenA => rw [commandResult, complete_map]; rfl
  | rotl lenA n => rw [commandResult, complete_map]; rfl
  | xor lenA lenB => rw [commandResult, complete_map]; rfl
  | sbox box => rfl

/-! ### No history -/

/-- A register that two commands write the same or both leave alone. -/
theorem getD_eq_or_left {α : Type} (o : Option α) (a b : α) :
    o.getD a = o.getD b ∨ (o.getD a = a ∧ o.getD b = b) := by
  cases o with
  | none => exact .inr ⟨rfl, rfl⟩
  | some v => exact .inl rfl

/-- Settles O29: `exec` is a completion with `commandResult`, which sees the inputs alone. -/
theorem commandsHaveNoHistory : Obligations.CommandsHaveNoHistory := by
  intro i s s' hx
  simp only [exec_eq_complete, ← hx]
  cases commandResult i s.inputs with
  | error e =>
    exact ⟨_, _, rfl, rfl, rfl, rfl, .inr ⟨rfl, rfl⟩, .inr ⟨rfl, rfl, rfl, rfl⟩, .inr ⟨rfl, rfl⟩,
      .inr ⟨rfl, rfl, rfl, rfl⟩⟩
  | ok w =>
    refine ⟨_, _, rfl, rfl, rfl, rfl, getD_eq_or_left w.dout _ _, ?_, getD_eq_or_left w.ipinv _ _, ?_⟩
    · cases hk : w.subkeys with
      | none => right; simp [State.applyWrites, hk]
      | some k => left; simp [State.applyWrites, hk]
    · cases hr : w.result with
      | none => right; simp [State.applyWrites, hr]
      | some r => left; simp [State.applyWrites, hr]

end Sys2Proof.Machine

/-! ## Proofs: which error a command ends with, and the width of its result -/

namespace Sys2Proof.Machine

/-! ### Table checks -/

theorem firstBadTable_eq_none {x : Inputs} {ts : List PermTable} :
    x.firstBadTable ts = none ↔ ∀ t ∈ ts, x.tableOk t = true := by
  simp [Inputs.firstBadTable]

theorem tableOk_p10 (x : Inputs) : x.tableOk .p10 = true ↔ entriesWithin 10 x.tableP10 :=
  inRange_iff 10 x.tableP10

theorem tableOk_p8 (x : Inputs) : x.tableOk .p8 = true ↔ entriesWithin 10 x.tableP8 :=
  inRange_iff 10 x.tableP8

theorem tableOk_ip (x : Inputs) :
    x.tableOk .ip = true ↔ entriesWithin 8 x.tableIp ∧ x.tableIp.Nodup := by
  simp [Inputs.tableOk, inRange_iff, noRepeats_iff]

theorem tableOk_ep (x : Inputs) : x.tableOk .ep = true ↔ entriesWithin 4 x.tableEp :=
  inRange_iff 4 x.tableEp

theorem tableOk_p4 (x : Inputs) :
    x.tableOk .p4 = true ↔ entriesWithin 4 x.tableP4 ∧ x.tableP4.Nodup := by
  simp [Inputs.tableOk, inRange_iff, noRepeats_iff]

/-! ### The inverse of IP as a table -/

/-- Eight different numbers from 1 to 8 are all of them. -/
theorem mem_tableIp {x : Inputs} (h : entriesWithin 8 x.tableIp) (hn : x.tableIp.Nodup) {p : Nat}
    (hp : 1 ≤ p ∧ p ≤ 8) : p ∈ x.tableIp := by
  have hsub : x.tableIp.toFinset ⊆ Finset.Icc 1 8 := fun t ht =>
    Finset.mem_Icc.2 (h t (List.mem_toFinset.1 ht))
  have hcard : (Finset.Icc 1 8).card ≤ x.tableIp.toFinset.card := by
    rw [List.toFinset_card_of_nodup hn, tableIp_length]; simp
  have hall := Finset.eq_of_subset_of_card_le hsub hcard
  exact List.mem_toFinset.1 (hall ▸ Finset.mem_Icc.2 hp)

/-- Every entry of the derived inverse is the place, from 1, of some entry of IP. -/
theorem invertTable_entriesWithin {x : Inputs} (h : entriesWithin 8 x.tableIp)
    (hn : x.tableIp.Nodup) : entriesWithin 8 (invertTable x.tableIp) := by
  obtain ⟨hlen, hinv⟩ := invertTable_inverseIs x h hn
  intro v hv
  obtain ⟨p, hp, rfl⟩ := List.mem_iff_getElem.1 hv
  obtain ⟨i, hi, hip⟩ := List.mem_iff_getElem.1 (mem_tableIp h hn (p := p + 1) (by omega))
  have hi8 : i < 8 := tableIp_length x ▸ hi
  have hval := hinv i hi8
  rw [List.getD_eq_getElem _ _ hi, hip, Nat.add_sub_cancel, List.getElem?_eq_getElem hp] at hval
  have := Option.some.inj hval
  omega

/-- The derived inverse holds the number 8, so it is in range of an operand only if that has 8 bits. -/
theorem invertTable_entriesWithin_iff {x : Inputs} (h : entriesWithin 8 x.tableIp)
    (hn : x.tableIp.Nodup) (n : Nat) : entriesWithin n (invertTable x.tableIp) ↔ 8 ≤ n := by
  constructor
  · intro hin
    have h8 := (invertTable_inverseIs x h hn).2 7 (by omega)
    exact (hin 8 (List.mem_of_getElem? h8)).2
  · intro hn8 t ht
    have := invertTable_entriesWithin h hn t ht
    omega

/-! ### Units that succeed -/

theorem ipInverse_ok {x : Inputs} (h : x.tableOk .ip = true) :
    ipInverse x = .ok (invertTable x.tableIp) := by
  simp [ipInverse, checkTables, h]

theorem keySchedule_ok (key : BitVec 10) {P10 P8 : List Nat} (h10 : entriesWithin 10 P10)
    (h8 : entriesWithin 10 P8) : ∃ k, keySchedule key P10 P8 = .ok k := by
  simp only [keySchedule, permute_ok _ _ h10, permute_ok _ _ h8, rotL_ok _ (show 1 ≤ 5 by omega),
    rotL_ok _ (show 2 ≤ 5 by omega)]
  exact ⟨_, rfl⟩

theorem feistelRound_ok (b sk : BitVec 8) {t : RoundTables} (hep : entriesWithin 4 t.ep)
    (hp4 : entriesWithin 4 t.p4) : ∃ r, feistelRound b sk t = .ok r := by
  simp only [feistelRound, roundF, permute_ok _ _ hep, permute_ok _ _ hp4, xorBits_same]
  exact ⟨_, rfl⟩

theorem cipherRounds_ok {x : Inputs} (hip : x.tableOk .ip = true) (hep : x.tableOk .ep = true)
    (hp4 : x.tableOk .p4 = true) (block ka kb : BitVec 8) :
    ∃ r, cipherRounds x block ka kb = .ok r := by
  obtain ⟨hin, hn⟩ := (tableOk_ip x).1 hip
  have hround (b sk : BitVec 8) : ∃ r, feistelRound b sk x.roundTables = .ok r :=
    feistelRound_ok b sk ((tableOk_ep x).1 hep) ((tableOk_p4 x).1 hp4).1
  obtain ⟨r1, h1⟩ := hround ((gather block x.tableIp).setWidth 8) ka
  obtain ⟨r2, h2⟩ := hround (swapHalves r1) kb
  have hout := permute_ok .ipInv r2 (invertTable_entriesWithin hin hn)
  refine ⟨((gather r2 (invertTable x.tableIp)).setWidth 8, invertTable x.tableIp), ?_⟩
  simp only [cipherRounds, permute_ok _ _ hin, ipInverse_ok hip, bind, Except.bind, h1, h2, hout]
  rfl

/-! ### The error of a computation -/

/-- The computation ends with this error, or succeeds where there is none. -/
def Reports {α : Type} (r : Except CmdError α) : Option CmdError → Prop
  | some e => r = .error e
  | none => ∃ a, r = .ok a

theorem Reports.map {α β : Type} {r : Except CmdError α} {e : Option CmdError} (h : Reports r e)
    (f : α → β) : Reports (r.map f) e := by
  cases e with
  | none => obtain ⟨a, rfl⟩ := h; exact ⟨f a, rfl⟩
  | some e => rw [h]; rfl

/-- The checks come first; what follows them succeeds when they pass (60_exceptions R266). -/
theorem reports_checkTables {α : Type} {x : Inputs} {ts : List PermTable} {f : Except CmdError α}
    (h : (∀ t ∈ ts, x.tableOk t = true) → ∃ a, f = .ok a) :
    Reports (do checkTables x ts; f) (x.firstBadTable ts) := by
  rw [checkTables_eq]
  cases hb : x.firstBadTable ts with
  | none => exact h (firstBadTable_eq_none.1 hb)
  | some e => rfl

theorem keyschedResult_reports (x : Inputs) :
    Reports (keyschedResult x) (firstError .keysched x) := by
  refine reports_checkTables fun hok => ?_
  exact keySchedule_ok x.key ((tableOk_p10 x).1 (hok .p10 (by simp)))
    ((tableOk_p8 x).1 (hok .p8 (by simp)))

theorem roundResult_reports (x : Inputs) : Reports (roundResult x) (firstError .round x) := by
  refine reports_checkTables fun hok => ?_
  exact feistelRound_ok _ _ ((tableOk_ep x).1 (hok .ep (by simp)))
    ((tableOk_p4 x).1 (hok .p4 (by simp))).1

theorem ipInverse_reports (x : Inputs) : Reports (ipInverse x) (firstError .ipinv x) :=
  reports_checkTables fun _ => ⟨_, rfl⟩

/-- What ENCRYPT and DECRYPT share: with all five tables legal the schedule and the rounds succeed. -/
theorem scheduleAndRounds_ok {x : Inputs} (hok : ∀ t ∈ checkedTables .encrypt, x.tableOk t = true) :
    (∃ k, keySchedule x.key x.tableP10 x.tableP8 = .ok k) ∧
      ∀ block ka kb, ∃ r, cipherRounds x block ka kb = .ok r := by
  simp only [checkedTables, List.forall_mem_cons] at hok
  obtain ⟨hp10, hp8, hip, hep, hp4, -⟩ := hok
  exact ⟨keySchedule_ok x.key ((tableOk_p10 x).1 hp10) ((tableOk_p8 x).1 hp8),
    cipherRounds_ok hip hep hp4⟩

theorem encryptResult_reports (x : Inputs) : Reports (encryptResult x) (firstError .encrypt x) := by
  refine reports_checkTables fun hok => ?_
  obtain ⟨⟨k, hk⟩, hrounds⟩ := scheduleAndRounds_ok hok
  obtain ⟨r, hr⟩ := hrounds x.din k.1 k.2
  simp only [hk, hr, bind, Except.bind]
  exact ⟨_, rfl⟩

theorem decryptResult_reports (x : Inputs) : Reports (decryptResult x) (firstError .decrypt x) := by
  refine reports_checkTables fun hok => ?_
  obtain ⟨⟨k, hk⟩, hrounds⟩ := scheduleAndRounds_ok hok
  obtain ⟨r, hr⟩ := hrounds x.din k.2 k.1
  simp only [hk, hr, bind, Except.bind]
  exact ⟨_, rfl⟩

theorem rotlResult_reports (x : Inputs) (lenA n : Nat) :
    Reports (rotlResult x lenA n) (firstError (.rotl lenA n) x) := by
  by_cases h : n ≤ lenA
  · simp only [firstError, rotlResult, rotL_ok _ h, Nat.not_lt.2 h, if_false]
    exact ⟨_, rfl⟩
  · simp only [firstError, rotlResult, rotL_error _ (Nat.not_le.1 h), Nat.not_le.1 h, if_true]
    rfl

theorem xorResult_reports (x : Inputs) (lenA lenB : Nat) :
    Reports (xorResult x lenA lenB) (firstError (.xor lenA lenB) x) := by
  by_cases h : lenA = lenB
  · subst h
    simp only [firstError, xorResult, xorBits_same, ne_eq, not_true_eq_false, if_false]
    exact ⟨_, rfl⟩
  · simp only [firstError, xorResult, xorBits_error _ _ h, ne_eq, h, not_false_eq_true, if_true]
    rfl

/-- PERM with a table at hand: the range check of that table against the operand's width. -/
theorem permResult_reports_of_table {x : Inputs} {table : PermTable} {T : List Nat}
    (hT : selectTable x table = .ok T) (lenA : Nat) :
    Reports (permResult x table lenA)
      (if inRange lenA T then none else some (.configuration table)) := by
  by_cases h : inRange lenA T = true
  · simp only [permResult, hT, h, if_true, bind, Except.bind,
      permute_ok _ _ ((inRange_iff lenA T).1 h)]
    exact ⟨_, rfl⟩
  · simp only [permResult, hT, h, bind, Except.bind,
      permute_error _ _ (mt (inRange_iff lenA T).2 h)]
    rfl

/-- PERM with IP_INV: IP's own check, then the width (40_permuter R135). -/
theorem permResult_ipInv_reports (x : Inputs) (lenA : Nat) :
    Reports (permResult x .ipInv lenA) (x.permError .ipInv lenA) := by
  by_cases hip : x.tableOk .ip = true
  · obtain ⟨hin, hn⟩ := (tableOk_ip x).1 hip
    have hrange : inRange lenA (invertTable x.tableIp) = true ↔ ¬ lenA < 8 := by
      rw [inRange_iff, invertTable_entriesWithin_iff hin hn, Nat.not_lt]
    have h := permResult_reports_of_table (table := .ipInv) (ipInverse_ok hip) lenA
    simpa only [Inputs.permError, hip, if_true, hrange, ite_not] using h
  · simp only [permResult, selectTable, ipInverse, checkTables, Inputs.permError, hip]
    rfl

theorem permResult_reports (x : Inputs) (table : PermTable) (lenA : Nat) :
    Reports (permResult x table lenA) (firstError (.perm table lenA) x) := by
  cases table with
  | p10 => exact permResult_reports_of_table rfl lenA
  | p8 => exact permResult_reports_of_table rfl lenA
  | ip => exact permResult_reports_of_table rfl lenA
  | ep => exact permResult_reports_of_table rfl lenA
  | p4 => exact permResult_reports_of_table rfl lenA
  | ipInv => exact permResult_ipInv_reports x lenA

/-- A command ends with the error of its first failing check, and with no other (60_exceptions R266). -/
theorem commandResult_reports (i : Instr) (x : Inputs) :
    Reports (commandResult i x) (firstError i x) := by
  cases i with
  | nop => exact ⟨_, rfl⟩
  | keysched => exact (keyschedResult_reports x).map _
  | encrypt => exact (encryptResult_reports x).map _
  | decrypt => exact (decryptResult_reports x).map _
  | ipinv => exact (ipInverse_reports x).map _
  | round => exact (roundResult_reports x).map _
  | swap => exact ⟨_, rfl⟩
  | perm table lenA => exact (permResult_reports x table lenA).map _
  | rotl lenA n => exact (rotlResult_reports x lenA n).map _
  | xor lenA lenB => exact (xorResult_reports x lenA lenB).map _
  | sbox box => exact ⟨_, rfl⟩

/-! ### The width of a result -/

theorem map_eq_ok {α β : Type} {r : Except CmdError α} {f : α → β} {b : β} (h : r.map f = .ok b) :
    ∃ a, r = .ok a ∧ f a = b := by
  cases r with
  | ok a => exact ⟨a, rfl, Except.ok.inj h⟩
  | error e => cases h

theorem bind_eq_ok {α β : Type} {r : Except CmdError α} {f : α → Except CmdError β} {b : β}
    (h : r >>= f = .ok b) : ∃ a, r = .ok a ∧ f a = .ok b := by
  cases r with
  | ok a => exact ⟨a, rfl, h⟩
  | error e => cases h

theorem ipInverse_length {x : Inputs} {T : List Nat} (h : ipInverse x = .ok T) : T.length = 8 := by
  obtain ⟨_, -, h⟩ := bind_eq_ok h
  obtain rfl := Except.ok.inj h
  simp [invertTable, invertFrom_length]

/-- A selected table is as long as the result of PERM is wide (40_permuter R135, 10_state R42). -/
theorem selectTable_length {x : Inputs} {table : PermTable} {T : List Nat} (lenA : Nat)
    (h : selectTable x table = .ok T) : some T.length = resultWidth (.perm table lenA) := by
  cases table with
  | p10 => obtain rfl := Except.ok.inj h; exact congrArg some (tableP10_length x)
  | p8 => obtain rfl := Except.ok.inj h; exact congrArg some (tableP8_length x)
  | ip => obtain rfl := Except.ok.inj h; exact congrArg some (tableIp_length x)
  | ep => obtain rfl := Except.ok.inj h; exact congrArg some (tableEp_length x)
  | p4 => obtain rfl := Except.ok.inj h; exact congrArg some (tableP4_length x)
  | ipInv => exact congrArg some (ipInverse_length h)

theorem permResult_width {x : Inputs} {table : PermTable} {lenA : Nat} {r : Nat × BitVec 10}
    (h : permResult x table lenA = .ok r) : some r.1 = resultWidth (.perm table lenA) := by
  obtain ⟨T, hT, h⟩ := bind_eq_ok h
  obtain ⟨out, -, h⟩ := bind_eq_ok h
  obtain rfl := Except.ok.inj h
  exact selectTable_length lenA hT

/-- A command writes RES exactly when the table of widths has one for it, and with that width. -/
theorem commandResult_width {i : Instr} {x : Inputs} {w : OutputWrites}
    (h : commandResult i x = .ok w) : w.result.map Prod.fst = resultWidth i := by
  cases i with
  | nop => obtain rfl := Except.ok.inj h; rfl
  | keysched => obtain ⟨_, -, rfl⟩ := map_eq_ok h; rfl
  | encrypt => obtain ⟨_, -, rfl⟩ := map_eq_ok h; rfl
  | decrypt => obtain ⟨_, -, rfl⟩ := map_eq_ok h; rfl
  | ipinv => obtain ⟨_, -, rfl⟩ := map_eq_ok h; rfl
  | round => obtain ⟨_, -, rfl⟩ := map_eq_ok h; rfl
  | swap => obtain rfl := Except.ok.inj h; rfl
  | perm table lenA => obtain ⟨_, hr, rfl⟩ := map_eq_ok h; exact permResult_width hr
  | rotl lenA n => obtain ⟨_, -, rfl⟩ := map_eq_ok h; rfl
  | xor lenA lenB => obtain ⟨_, -, rfl⟩ := map_eq_ok h; rfl
  | sbox box => obtain rfl := Except.ok.inj h; rfl

/-! ### Decoded commands are well-formed, so a width fits RESLEN -/

theorem decodePlain_eq_ok {w : Word} {i j : Instr} (h : decodePlain w i = .ok j) : j = i := by
  unfold decodePlain at h
  split at h
  · exact (Except.ok.inj h).symm
  · cases h

theorem decodePerm_wellFormed {w : Word} {i : Instr} (h : decodePerm w = .ok i) :
    i.wellFormed = true := by
  unfold decodePerm at h
  split at h
  · cases h
  · split at h
    · cases h
    · split at h
      · obtain rfl := Except.ok.inj h; assumption
      · cases h

theorem decodeRotl_wellFormed {w : Word} {i : Instr} (h : decodeRotl w = .ok i) :
    i.wellFormed = true := by
  unfold decodeRotl at h
  split at h
  · cases h
  · split at h
    · obtain rfl := Except.ok.inj h
      have hn : fieldN w ≤ 15 := by unfold fieldN; omega
      simp_all [Instr.wellFormed, amountLegal]
    · cases h

theorem decodeXor_wellFormed {w : Word} {i : Instr} (h : decodeXor w = .ok i) :
    i.wellFormed = true := by
  unfold decodeXor at h
  split at h
  · cases h
  · split at h
    · cases h
    · split at h
      · cases h
      · obtain rfl := Except.ok.inj h; simp_all [Instr.wellFormed]

theorem decodeSbox_wellFormed {w : Word} {i : Instr} (h : decodeSbox w = .ok i) :
    i.wellFormed = true := by
  unfold decodeSbox at h
  split at h
  · cases h
  · split at h
    · cases h
    · obtain rfl := Except.ok.inj h; rfl

/-- The decoder gives well-formed commands only (30_encoding R105, R109). -/
theorem decode_wellFormed {w : Word} {i : Instr} (h : decode w = .ok i) : i.wellFormed = true := by
  unfold decode at h
  split at h
  · cases h
  · split at h
    -- PERM, ROTL, XOR, SBOX and the reserved opcodes; the rest are the commands without fields
    case h_8 => exact decodePerm_wellFormed h
    case h_9 => exact decodeRotl_wellFormed h
    case h_10 => exact decodeXor_wellFormed h
    case h_11 => exact decodeSbox_wellFormed h
    case h_12 => cases h
    all_goals obtain rfl := decodePlain_eq_ok h; rfl

theorem le_of_lenLegal {l : Nat} (h : lenLegal l = true) : l ≤ 10 :=
  of_decide_eq_true (Bool.and_eq_true_iff.1 h).2

theorem resultWidth_le {i : Instr} (h : i.wellFormed = true) {m : Nat} (hm : resultWidth i = some m) :
    m ≤ 10 := by
  cases i with
  | nop => cases hm
  | keysched => cases hm
  | encrypt => cases hm
  | decrypt => cases hm
  | ipinv => cases hm
  | round => cases hm; decide
  | swap => cases hm; decide
  | perm table lenA => cases table <;> cases hm <;> decide
  | rotl lenA n => cases hm; exact le_of_lenLegal (Bool.and_eq_true_iff.1 h).1
  | xor lenA lenB => cases hm; exact le_of_lenLegal (Bool.and_eq_true_iff.1 h).1
  | sbox box => cases hm; decide

end Sys2Proof.Machine

/-! ## Proofs: what a step does to each register -/

namespace Sys2Proof.Machine

/-! ### The host's part of a cycle -/

/-- The state after the host's register write of this cycle, if it has one; the engine's part follows. -/
def State.hostPart (s : State) : State :=
  match s.writesNow with
  | some (r, v) => (writeReg s.takeEvent r v).2
  | none => s.takeEvent

theorem hostPart_of_idle {s : State} (h : s.event = .idle) : s.hostPart = s.takeEvent := by
  simp [State.hostPart, State.writesNow, h]

/-- An access in the window leaves the host's part of the cycle and a reply. -/
theorem afterAccess_eq_hostPart {s : State} {a : BusAccess} {o : Nat} (h : s.event = .access a)
    (ho : windowOffset a.addr = some o) :
    s.afterAccess o a = { s.hostPart with resp := some (busAccess s.takeEvent o a).1 } := by
  suffices (busAccess s.takeEvent o a).2 = s.hostPart by rw [State.afterAccess, this]
  cases a with
  | read addr width => simp [State.hostPart, State.writesNow, h, busAccess]
  | write addr width v =>
    simp only [BusAccess.addr] at ho
    cases ht : target o width with
    | none => simp [State.hostPart, State.writesNow, h, ho, busAccess, busWrite, ht]
    | some r => simp [State.hostPart, State.writesNow, h, ho, busAccess, busWrite, ht]

/-- The six things the host's part can be, each with what claims say of the cycle: the accepted word,
whether a write is discarded, the data whose bits [3:1] clear STATUS, the input write. -/
inductive HostEffect (s : State) :
    Option Word → Bool → (Nat → Bool) → Option (Reg × Word) → State → Prop
  | nothing : HostEffect s none false (fun _ => false) none s.takeEvent
  | control (v : Word) : HostEffect s none false (fun _ => false) none (s.takeEvent.writeCtrl v)
  | clear (v : Word) : HostEffect s none false v.getLsbD none (s.takeEvent.writeStatus v)
  | discard : s.status.busy = true →
      HostEffect s none true (fun _ => false) none s.takeEvent.discardWrite
  | accept (w : Word) : s.status.busy = false →
      HostEffect s (some w) false (fun _ => false) none (s.takeEvent.accept w)
  | input (r : Reg) (v : Word) : s.status.busy = false →
      HostEffect s none false (fun _ => false) (some (r, v)) (s.takeEvent.writeInput r v)

theorem State.hostPart_effect (s : State) :
    HostEffect s s.acceptsNow s.discardsNow (fun k => s.clearsNow k) s.inputWriteNow s.hostPart := by
  unfold State.acceptsNow State.discardsNow State.clearsNow State.inputWriteNow State.hostPart
  cases s.writesNow with
  | none => exact .nothing
  | some p =>
    obtain ⟨r, v⟩ := p
    cases r with
    | ctrl => simpa [writeReg, Reg.access] using HostEffect.control v
    | status => simpa [writeReg, Reg.access] using HostEffect.clear v
    | id | dout | k1 | k2 | ipinv | res =>
      simpa [writeReg, Reg.access] using HostEffect.nothing (s := s)
    | cmd =>
      cases hb : s.status.busy with
      | true => simpa [writeReg, Reg.access, hb] using HostEffect.discard hb
      | false => simpa [writeReg, Reg.access, hb] using HostEffect.accept v hb
    | _ =>
      cases hb : s.status.busy with
      | true => simpa [writeReg, Reg.access, hb] using HostEffect.discard hb
      | false => simpa [writeReg, Reg.access, hb] using HostEffect.input _ v hb

section HostFields

variable {s u : State} {a : Option Word} {d : Bool} {c : Nat → Bool} {x : Option (Reg × Word)}

theorem HostEffect.busy (h : HostEffect s a d c x u) :
    u.status.busy = (a.isSome || s.status.busy) := by
  cases h <;> simp

theorem HostEffect.done (h : HostEffect s a d c x u) :
    u.status.done = (!a.isSome && (s.status.done && !c 1)) := by
  cases h <;> simp

theorem HostEffect.err (h : HostEffect s a d c x u) : u.status.err = (s.status.err && !c 2) := by
  cases h <;> simp

theorem HostEffect.bviol (h : HostEffect s a d c x u) :
    u.status.bviol = (d || (s.status.bviol && !c 3)) := by
  cases h <;> simp

theorem HostEffect.ecode (h : HostEffect s a d c x u) : u.status.ecode = s.status.ecode := by
  cases h <;> simp

theorem HostEffect.errtab (h : HostEffect s a d c x u) : u.status.errtab = s.status.errtab := by
  cases h <;> simp

theorem HostEffect.reslen (h : HostEffect s a d c x u) : u.status.reslen = s.status.reslen := by
  cases h <;> simp

theorem HostEffect.inputs (h : HostEffect s a d c x u) :
    u.inputs = (x.map fun p => s.inputs.write p.1 p.2).getD s.inputs := by
  cases h <;> simp

theorem HostEffect.cmd (h : HostEffect s a d c x u) : u.cmd = a.getD s.cmd := by
  cases h <;> simp

/-! While busy no word is accepted, no input register is written, and the host leaves the count alone
(70_reset_and_hazards R298). -/

theorem HostEffect.accepts_none (h : HostEffect s a d c x u) (hb : s.status.busy = true) :
    a = none := by
  cases h <;> simp_all

theorem HostEffect.input_none (h : HostEffect s a d c x u) (hb : s.status.busy = true) :
    x = none := by
  cases h <;> simp_all

theorem HostEffect.count (h : HostEffect s a d c x u) (hb : s.status.busy = true) :
    u.count = s.count := by
  cases h <;> simp_all

end HostFields

@[simp] theorem State.hostPart_busy (s : State) :
    s.hostPart.status.busy = (s.acceptsNow.isSome || s.status.busy) := s.hostPart_effect.busy

@[simp] theorem State.hostPart_done (s : State) :
    s.hostPart.status.done = (!s.acceptsNow.isSome && (s.status.done && !s.clearsNow 1)) :=
  s.hostPart_effect.done

@[simp] theorem State.hostPart_err (s : State) :
    s.hostPart.status.err = (s.status.err && !s.clearsNow 2) := s.hostPart_effect.err

@[simp] theorem State.hostPart_bviol (s : State) :
    s.hostPart.status.bviol = (s.discardsNow || (s.status.bviol && !s.clearsNow 3)) :=
  s.hostPart_effect.bviol

@[simp] theorem State.hostPart_ecode (s : State) : s.hostPart.status.ecode = s.status.ecode :=
  s.hostPart_effect.ecode

@[simp] theorem State.hostPart_errtab (s : State) : s.hostPart.status.errtab = s.status.errtab :=
  s.hostPart_effect.errtab

@[simp] theorem State.hostPart_reslen (s : State) : s.hostPart.status.reslen = s.status.reslen :=
  s.hostPart_effect.reslen

@[simp] theorem State.hostPart_inputs (s : State) :
    s.hostPart.inputs = (s.inputWriteNow.map fun p => s.inputs.write p.1 p.2).getD s.inputs :=
  s.hostPart_effect.inputs

@[simp] theorem State.hostPart_cmd (s : State) : s.hostPart.cmd = s.acceptsNow.getD s.cmd :=
  s.hostPart_effect.cmd

theorem acceptsNow_of_busy {s : State} (hb : s.status.busy = true) : s.acceptsNow = none :=
  s.hostPart_effect.accepts_none hb

theorem inputWriteNow_of_busy {s : State} (hb : s.status.busy = true) : s.inputWriteNow = none :=
  s.hostPart_effect.input_none hb

theorem hostPart_count_of_busy {s : State} (hb : s.status.busy = true) : s.hostPart.count = s.count :=
  s.hostPart_effect.count hb

theorem acceptsNow_of_reset {s : State} (h : s.resetsNow = true) : s.acceptsNow = none := by
  have he : s.event = .reset := of_decide_eq_true h
  simp [State.acceptsNow, State.writesNow, he]

/-! ### The step -/

@[simp] theorem State.applyWrites_cmd (s : State) (w : OutputWrites) :
    (s.applyWrites w).cmd = s.cmd := rfl

@[simp] theorem State.applyWrites_inputs (s : State) (w : OutputWrites) :
    (s.applyWrites w).inputs = s.inputs := rfl

@[simp] theorem State.applyWrites_err (s : State) (w : OutputWrites) :
    (s.applyWrites w).status.err = s.status.err := rfl

@[simp] theorem State.applyWrites_bviol (s : State) (w : OutputWrites) :
    (s.applyWrites w).status.bviol = s.status.bviol := rfl

@[simp] theorem State.applyWrites_reslen (s : State) (w : OutputWrites) :
    (s.applyWrites w).status.reslen =
      ((w.result.map Prod.fst).map (BitVec.ofNat 4)).getD s.status.reslen := rfl

/-- The completion step ends with the pending error, or with the writes of the command in CMD. -/
theorem completionStep_next {s t : State} (h : completionStep s = .next t) :
    (∃ e, s.pendingError = some e ∧ t = s.completeError e) ∨
    (∃ i w, s.pendingError = none ∧ decode s.cmd = .ok i ∧ commandResult i s.inputs = .ok w ∧
      t = (s.applyWrites w).completeOk) := by
  unfold completionStep at h
  unfold State.pendingError
  cases hd : decode s.cmd with
  | error r =>
    rw [hd] at h
    exact .inl ⟨.illegalCommand, rfl, (Host.Outcome.next.inj h).symm⟩
  | ok i =>
    rw [hd] at h
    simp only [exec_eq_complete] at h
    have hrep := commandResult_reports i s.inputs
    cases he : firstError i s.inputs with
    | some e =>
      have hr : commandResult i s.inputs = .error e := by simpa [he, Reports] using hrep
      rw [hr, complete_error] at h
      exact .inl ⟨e, he, (Host.Outcome.next.inj h).symm⟩
    | none =>
      obtain ⟨w, hr⟩ : ∃ w, commandResult i s.inputs = .ok w := by simpa [he, Reports] using hrep
      rw [hr, complete_ok] at h
      exact .inr ⟨i, w, he, rfl, hr, (Host.Outcome.next.inj h).symm⟩

/-- The four things a step can be: a reset; the host's part and the count; the host's part and then a
completion with the pending error; the host's part and then a successful completion. -/
inductive StepEffect (s : State) : State → Prop
  | reset : s.resetsNow = true → StepEffect s s.afterReset
  | quiet (reply : Option BusReply) : s.resetsNow = false → s.completesNow = false →
      StepEffect s { s.hostPart with
        count := if s.status.busy then s.hostPart.count - 1 else s.hostPart.count
        resp := reply }
  | fails (reply : Option BusReply) (e : CmdError) : s.resetsNow = false → s.completesNow = true →
      s.pendingError = some e →
      StepEffect s (({ s.hostPart with resp := reply } : State).countDown.completeError e)
  | succeeds (reply : Option BusReply) (i : Instr) (w : OutputWrites) : s.resetsNow = false →
      s.completesNow = true → s.pendingError = none → decode s.cmd = .ok i →
      commandResult i s.inputs = .ok w →
      StepEffect s (({ s.hostPart with resp := reply } : State).countDown.applyWrites w).completeOk

/-- The engine's part of a cycle, after the host's. -/
theorem engineCycle_effect {s t : State} {reply : Option BusReply} (hr : s.resetsNow = false)
    (h : engineCycle s.status.busy { s.hostPart with resp := reply } = .next t) : StepEffect s t := by
  obtain ⟨hb, rfl⟩ | ⟨hb, hc, rfl⟩ | ⟨hb, hc, h⟩ := engineCycle_next h
  · have h := StepEffect.quiet reply hr (by simp [State.completesNow, hb])
    rw [if_neg (by simp [hb])] at h
    exact h
  · have hc' : 1 < s.count := hostPart_count_of_busy hb ▸ hc
    have h := StepEffect.quiet reply hr (by simp [State.completesNow, hc'])
    rw [if_pos hb] at h
    exact h
  · have hc' : s.completesNow = true := by
      simp only [State.completesNow, hb, hr, ← hostPart_count_of_busy hb, hc]; rfl
    have hcmd : s.hostPart.cmd = s.cmd := by simp [acceptsNow_of_busy hb]
    have hin : s.hostPart.inputs = s.inputs := by simp [inputWriteNow_of_busy hb]
    obtain ⟨e, he, rfl⟩ | ⟨i, w, he, hd, hw, rfl⟩ := completionStep_next h
    · refine .fails reply e hr hc' ?_
      rw [← he, State.pendingError, State.pendingError]
      simp only [State.countDown_cmd, State.countDown_inputs, hcmd, hin]
    · refine .succeeds reply i w hr hc' ?_ (hcmd ▸ hd) (hin ▸ hw)
      rw [← he, State.pendingError, State.pendingError]
      simp only [State.countDown_cmd, State.countDown_inputs, hcmd, hin]

/-- Every step that answers a next state is one of the four. -/
theorem step_effect {s t : State} (h : step s = .next t) : StepEffect s t := by
  obtain ⟨he, rfl⟩ | ⟨he, h⟩ | ⟨a, o, he, ho, h⟩ := step_next h
  · exact .reset (by simp [State.resetsNow, he])
  · rw [← hostPart_of_idle he] at h
    exact engineCycle_effect (reply := s.hostPart.resp) (by simp [State.resetsNow, he]) h
  · rw [afterAccess_eq_hostPart he ho] at h
    exact engineCycle_effect (by simp [State.resetsNow, he]) h

theorem busy_of_completesNow {s : State} (h : s.completesNow = true) : s.status.busy = true := by
  simp only [State.completesNow, Bool.and_eq_true] at h
  obtain ⟨⟨hb, -⟩, -⟩ := h
  exact hb

/-! ### The obligations about the registers -/

/-- Settles O41: acceptance needs an idle engine and completion a busy one. -/
theorem busyChangesOnlyByRule : Obligations.BusyChangesOnlyByRule := by
  intro s t h
  cases step_effect h with
  | reset hr => simp [hr, Status.reset]
  | quiet reply hr hc => simp [hr, hc]
  | fails reply e hr hc he => simp [hr, hc, acceptsNow_of_busy (busy_of_completesNow hc)]
  | succeeds reply i w hr hc he hd hw =>
    simp [hr, hc, acceptsNow_of_busy (busy_of_completesNow hc)]

/-- Settles O42: a completion sets DONE after the host's clear of the same cycle. -/
theorem doneChangesOnlyByRule : Obligations.DoneChangesOnlyByRule := by
  intro s t h
  cases step_effect h with
  | reset hr => simp [hr, Status.reset]
  | quiet reply hr hc => cases ha : s.acceptsNow <;> simp [hr, hc, ha]
  | fails reply e hr hc he => simp [hr, hc]
  | succeeds reply i w hr hc he hd hw => simp [hr, hc]

/-- Settles O43: a successful completion leaves ERR to the host's part. -/
theorem errIsSticky : Obligations.ErrIsSticky := by
  intro s t h
  cases step_effect h with
  | reset hr => simp [hr, Status.reset]
  | quiet reply hr hc => simp [hr, hc]
  | fails reply e hr hc he => simp [hr, hc, he]
  | succeeds reply i w hr hc he hd hw => simp [hr, hc, he]

/-- Settles O44: the host's part alone touches BVIOL. -/
theorem bviolIsSticky : Obligations.BviolIsSticky := by
  intro s t h
  cases step_effect h with
  | reset hr => simp [hr, Status.reset]
  | quiet reply hr hc => simp [hr]
  | fails reply e hr hc he => simp [hr]
  | succeeds reply i w hr hc he hd hw => simp [hr]

theorem CmdError.toNat_codes (e : CmdError) :
    e.ecode.toNat = e.codes.1 ∧ e.errtab.toNat = e.codes.2 := by
  cases e with
  | configuration table => cases table <;> decide
  | lengthMismatch => decide
  | domain => decide
  | illegalCommand => decide

theorem codes_configuration (table : PermTable) :
    (CmdError.configuration table).codes = (1, selOfPermTable table + 1) := by
  cases table <;> rfl

/-- Settles O45: the codes are those of the pending error, and the host's part leaves them. -/
theorem completionWritesErrorCodes : Obligations.CompletionWritesErrorCodes := by
  intro s t h
  cases step_effect h with
  | reset hr => simp [hr, Status.reset, codes_configuration]
  | quiet reply hr hc => simp [hr, hc, codes_configuration]
  | fails reply e hr hc he => simp [hr, hc, he, e.toNat_codes, codes_configuration]
  | succeeds reply i w hr hc he hd hw => simp [hr, hc, he, codes_configuration]

/-- The width of a decoded command's result as RESLEN holds it. -/
theorem reslen_of_width {i : Instr} (h : i.wellFormed = true) (l : BitVec 4) :
    (((resultWidth i).map (BitVec.ofNat 4)).getD l).toNat = (resultWidth i).getD l.toNat := by
  cases hm : resultWidth i with
  | none => rfl
  | some m =>
    have hle := resultWidth_le h hm
    simp [Nat.mod_eq_of_lt (show m < 16 by omega)]

/-- Settles O46: the writes carry the width of the result, which RESLEN can hold. -/
theorem reslenIsTheResultWidth : Obligations.ReslenIsTheResultWidth := by
  intro s t h
  cases step_effect h with
  | reset hr => simp [hr, Status.reset]
  | quiet reply hr hc => simp [hr, hc]
  | fails reply e hr hc he => simp [hr, hc, he]
  | succeeds reply i w hr hc he hd hw =>
    simp [hr, hc, he, hd, commandResult_width hw, reslen_of_width (decode_wellFormed hd)]

/-- Settles O47: no completion writes an input register. -/
theorem inputsChangeOnlyByTheHost : Obligations.InputsChangeOnlyByTheHost := by
  intro s t h
  suffices ht : t.inputs = if s.resetsNow then Inputs.reset
      else (s.inputWriteNow.map fun p => s.inputs.write p.1 p.2).getD s.inputs by
    rw [ht]
    cases s.inputWriteNow <;> rfl
  cases step_effect h with
  | reset hr => simp [hr]
  | quiet reply hr hc => simp [hr]
  | fails reply e hr hc he => simp [hr]
  | succeeds reply i w hr hc he hd hw => simp [hr]

/-- Settles O48: acceptance alone writes CMD, and no command completes in its cycle. -/
theorem cmdHoldsTheLastAcceptedWord : Obligations.CmdHoldsTheLastAcceptedWord := by
  intro s t h
  suffices ht : t.cmd = if s.resetsNow then 0 else s.acceptsNow.getD s.cmd by
    refine ⟨?_, fun ha => ?_⟩
    · show t.cmd = _
      rw [ht]
      cases s.acceptsNow <;> rfl
    · have hr : s.resetsNow = false := by
        by_contra hr
        simp [acceptsNow_of_reset (by simpa using hr)] at ha
      simp [busyChangesOnlyByRule s t h, hr, ha]
  cases step_effect h with
  | reset hr => simp [hr]
  | quiet reply hr hc => simp [hr]
  | fails reply e hr hc he => simp [hr]
  | succeeds reply i w hr hc he hd hw => simp [hr]

end Sys2Proof.Machine

/-! ## Proofs: what one access to the bus answers -/

namespace Sys2Proof.Machine

/-! ### Accesses that reach no register, and those that reach one -/

theorem busAccess_read_failed {s : State} {o width : Nat} (h : target o width = none) (addr : Nat) :
    busAccess s o (.read addr width) = (⟨.error, 0⟩, s) := by
  simp [busAccess, busRead, h, BusReply.failed]

theorem busAccess_write_failed {s : State} {o width : Nat} (h : target o width = none) (addr : Nat)
    (v : Word) : busAccess s o (.write addr width v) = (⟨.error, 0⟩, s) := by
  simp [busAccess, busWrite, h, BusReply.failed]

/-- A legal read does not look at BUSY (20_memory R76). -/
theorem busAccess_read_offset (s : State) (r : Reg) (addr : Nat) :
    busAccess s r.offset (.read addr 4) = (⟨.okay, s.readReg r⟩, s) := by
  simp [busAccess, busRead, target_offset]

theorem busAccess_write_offset (s : State) (r : Reg) (addr : Nat) (v : Word) :
    busAccess s r.offset (.write addr 4 v) = writeReg s r v := by
  simp [busAccess, busWrite, target_offset]

theorem writeReg_readOnly {r : Reg} (h : r.access = .readOnly) (s : State) (v : Word) :
    writeReg s r v = (⟨.error, 0⟩, s) := by
  simp [writeReg, h, BusReply.failed]

/-- The offsets of ID, DOUT, K1, K2, IPINV and RES (10_state R31). -/
theorem readOnly_at {o : Nat} (h : o ∈ [0x00, 0x18, 0x1C, 0x20, 0x24, 0x30]) :
    ∃ r : Reg, r.access = .readOnly ∧ r.offset = o := by
  simp only [List.mem_cons, List.not_mem_nil, or_false] at h
  obtain rfl | rfl | rfl | rfl | rfl | rfl := h
  · exact ⟨.id, rfl, rfl⟩
  · exact ⟨.dout, rfl, rfl⟩
  · exact ⟨.k1, rfl, rfl⟩
  · exact ⟨.k2, rfl, rfl⟩
  · exact ⟨.ipinv, rfl, rfl⟩
  · exact ⟨.res, rfl, rfl⟩

/-- Settles O30: a bad access has no target register, and a read-only target takes no write. -/
theorem badAccessesChangeNothing : Obligations.BadAccessesChangeNothing := by
  intro s addr o width v
  refine ⟨fun h => ?_, fun h => ?_⟩
  · have ht : target o width = none := target_bad h
    exact ⟨busAccess_read_failed ht addr, busAccess_write_failed ht addr v⟩
  · by_cases hw : width = 4
    · obtain ⟨r, hr, rfl⟩ := readOnly_at h
      rw [hw, busAccess_write_offset, writeReg_readOnly hr]
    · exact busAccess_write_failed (target_bad (.inl hw)) addr v

/-! ### The bits a register has -/

/-- A field of `w` bits, read as a word, has no bit above its own. -/
theorem setWidth_and_not_mask {w : Nat} (v : BitVec w) :
    v.setWidth 32 &&& ~~~ (BitVec.allOnes w).setWidth 32 = 0 := by
  ext i hi
  simpa using BitVec.lt_of_getLsbD

theorem word_and_not_mask (v : Word) : v &&& ~~~ 0xFFFFFFFF = 0 := by
  simp

/-- Two words laid out alike are disjoint when their parts are. -/
theorem append_and_append_eq_zero {m n : Nat} {x a : BitVec m} {y b : BitVec n}
    (hx : x &&& a = 0) (hy : y &&& b = 0) : (x ++ y) &&& (a ++ b) = 0 := by
  rw [BitVec.and_append, hx, hy]
  exact BitVec.zero_append_zero

/-- Field by field, STATUS or its complemented mask is 0: the reserved bits are [7] and [31:16]
(10_state R35). -/
theorem statusWord_and_not_mask (st : Status) : st.word &&& ~~~ Reg.mask .status = 0 := by
  have hmask : ~~~ Reg.mask .status =
      BitVec.allOnes 16 ++ 0#4 ++ 0#4 ++ 1#1 ++ 0#3 ++ 0#1 ++ 0#1 ++ 0#1 ++ 0#1 := by decide
  rw [hmask, Status.word]
  iterate 8 refine append_and_append_eq_zero ?_ (by simp)
  simp

/-- Bits that do not exist read 0 (10_state R64). -/
theorem readReg_and_not_mask (s : State) (r : Reg) : s.readReg r &&& ~~~ r.mask = 0 := by
  cases r with
  | status => exact statusWord_and_not_mask s.status
  | id | cmd | ipinv | p10a | p8 | ip | ep | s0 | s1 => exact word_and_not_mask _
  | ctrl | key | din | dout | k1 | k2 | opa | opb | res | p10b | p4 => exact setWidth_and_not_mask _

/-! ### The register map -/

/-- The registers in the order of the map (10_state R31). -/
def Reg.inMapOrder : List Reg :=
  [.id, .ctrl, .cmd, .status, .key, .din, .dout, .k1, .k2, .ipinv, .opa, .opb, .res, .p10a, .p10b,
    .p8, .ip, .ep, .p4, .s0, .s1]

/-! ### The output registers while a command runs -/

theorem HostEffect.outputs {s u : State} {a : Option Word} {d : Bool} {c : Nat → Bool}
    {x : Option (Reg × Word)} (h : HostEffect s a d c x u) : u.outputs = s.outputs := by
  cases h <;> simp

@[simp] theorem State.hostPart_outputs (s : State) : s.hostPart.outputs = s.outputs :=
  s.hostPart_effect.outputs

/-- Reset and completion leave the engine idle, and nothing else writes an output register. -/
theorem outputs_of_busy_after {s t : State} (h : step s = .next t) (hb : t.status.busy = true) :
    t.outputs = s.outputs := by
  cases step_effect h with
  | reset hr => simp [Status.reset] at hb
  | quiet reply hr hc => simp
  | fails reply e hr hc he => simp at hb
  | succeeds reply i w hr hc he hd hw => simp at hb

theorem readReg_congr_outputs {s t : State} (h : t.outputs = s.outputs) {q : Reg}
    (hq : q ∈ [Reg.dout, .k1, .k2, .ipinv, .res]) : t.readReg q = s.readReg q := by
  simp only [List.mem_cons, List.not_mem_nil, or_false] at hq
  obtain rfl | rfl | rfl | rfl | rfl := hq <;> simp [State.readReg, h]

/-- Settles O31: the map lists every register with its offset and the value it reads as. -/
theorem legalReadsReturnTheRegister : Obligations.LegalReadsReturnTheRegister := by
  intro s r addr
  refine ⟨busAccess_read_offset s r addr, readReg_and_not_mask s r, ?_, fun t h _ hb q hq =>
    readReg_congr_outputs (outputs_of_busy_after h hb) hq⟩
  change ∀ p ∈ Reg.inMapOrder.map fun r => (r, r.offset, s.readReg r), _
  exact List.forall_mem_map.2 fun r _ => ⟨rfl, rfl, busAccess_read_offset s r addr⟩

end Sys2Proof.Machine

/-! ## Proofs: the encoder and the decoder agree -/

namespace Sys2Proof.Machine

/-! ### The fields of a packed word -/

theorem toNat_packFields {op sel lenA lenB n : Nat} (hop : op < 16) (hsel : sel < 16)
    (hlenA : lenA < 16) (hlenB : lenB < 16) (hn : n < 16) :
    (packFields op sel lenA lenB n).toNat =
      op + 16 * sel + 256 * lenA + 4096 * lenB + 65536 * n := by
  rw [packFields, BitVec.toNat_ofNat, Nat.mod_eq_of_lt (by omega)]

/-- Each field reads back from the packed word, RSV as 0 (30_encoding R100). -/
theorem fields_packFields {op sel lenA lenB n : Nat} (hop : op < 16) (hsel : sel < 16)
    (hlenA : lenA < 16) (hlenB : lenB < 16) (hn : n < 16) :
    fieldRsv (packFields op sel lenA lenB n) = 0 ∧ fieldOp (packFields op sel lenA lenB n) = op ∧
      fieldSel (packFields op sel lenA lenB n) = sel ∧
      fieldLenA (packFields op sel lenA lenB n) = lenA ∧
      fieldLenB (packFields op sel lenA lenB n) = lenB ∧
      fieldN (packFields op sel lenA lenB n) = n := by
  simp only [fieldRsv, fieldOp, fieldSel, fieldLenA, fieldLenB, fieldN, BitVec.extractLsb'_toNat,
    Nat.shiftRight_eq_div_pow, toNat_packFields hop hsel hlenA hlenB hn]
  omega

/-- A word whose RSV is 0 is the word packed from its own fields (30_encoding R100, R104). -/
theorem packFields_fields {w : Word} (hrsv : fieldRsv w = 0) :
    packFields (fieldOp w) (fieldSel w) (fieldLenA w) (fieldLenB w) (fieldN w) = w := by
  apply BitVec.eq_of_toNat_eq
  simp only [fieldRsv, BitVec.extractLsb'_toNat, Nat.shiftRight_eq_div_pow] at hrsv
  simp only [packFields, fieldOp, fieldSel, fieldLenA, fieldLenB, fieldN, BitVec.toNat_ofNat,
    BitVec.extractLsb'_toNat, Nat.shiftRight_eq_div_pow]
  omega

/-! ### Selectors -/

@[simp] theorem permTableOfSel_selOfPermTable (t : PermTable) :
    permTableOfSel (selOfPermTable t) = some t := by
  cases t <;> rfl

@[simp] theorem sboxOfSel_selOfSBox (b : SBoxName) : sboxOfSel (selOfSBox b) = some b := by
  cases b <;> rfl

theorem selOfPermTable_lt (t : PermTable) : selOfPermTable t < 16 := by
  cases t <;> decide

theorem selOfSBox_lt (b : SBoxName) : selOfSBox b < 16 := by
  cases b <;> decide

theorem selOfPermTable_of_permTableOfSel {k : Nat} {t : PermTable} (h : permTableOfSel k = some t) :
    selOfPermTable t = k := by
  unfold permTableOfSel at h
  split at h <;> cases h <;> rfl

theorem selOfSBox_of_sboxOfSel {k : Nat} {b : SBoxName} (h : sboxOfSel k = some b) :
    selOfSBox b = k := by
  unfold sboxOfSel at h
  split at h <;> cases h <;> rfl

/-! ### The decoder reads back a command from its word -/

theorem lt_of_lenLegal {l : Nat} (h : lenLegal l = true) : l < 16 :=
  Nat.lt_of_le_of_lt (le_of_lenLegal h) (by decide)

theorem lt_of_amountLegal {n : Nat} (h : amountLegal n = true) : n < 16 :=
  Nat.lt_succ_of_le (of_decide_eq_true h)

theorem decode_encode_perm (t : PermTable) {lenA : Nat} (hA : lenLegal lenA = true) :
    decode (encode (.perm t lenA)) = .ok (.perm t lenA) := by
  obtain ⟨hrsv, hop, hsel, hlenA, hlenB, hn⟩ := fields_packFields (op := 7) (lenB := 0) (n := 0)
    (by decide) (selOfPermTable_lt t) (lt_of_lenLegal hA) (by decide) (by decide)
  simp [encode, decode, decodePerm, hrsv, hop, hsel, hlenA, hlenB, hn, hA]

theorem decode_encode_rotl {lenA n : Nat} (hA : lenLegal lenA = true) (hN : amountLegal n = true) :
    decode (encode (.rotl lenA n)) = .ok (.rotl lenA n) := by
  obtain ⟨hrsv, hop, hsel, hlenA, hlenB, hn⟩ := fields_packFields (op := 8) (sel := 0) (lenB := 0)
    (by decide) (by decide) (lt_of_lenLegal hA) (by decide) (lt_of_amountLegal hN)
  simp [encode, decode, decodeRotl, hrsv, hop, hsel, hlenA, hlenB, hn, hA]

theorem decode_encode_xor {lenA lenB : Nat} (hA : lenLegal lenA = true)
    (hB : lenLegal lenB = true) : decode (encode (.xor lenA lenB)) = .ok (.xor lenA lenB) := by
  obtain ⟨hrsv, hop, hsel, hlenA, hlenB, hn⟩ := fields_packFields (op := 9) (sel := 0) (n := 0)
    (by decide) (by decide) (lt_of_lenLegal hA) (lt_of_lenLegal hB) (by decide)
  simp [encode, decode, decodeXor, hrsv, hop, hsel, hlenA, hlenB, hn, hA, hB]

theorem decode_encode_sbox (b : SBoxName) : decode (encode (.sbox b)) = .ok (.sbox b) := by
  cases b <;> rfl

/-- Every command with legal fields is read back from its word (30_encoding R105, R109). -/
theorem decode_encode {i : Instr} (h : i.wellFormed = true) : decode (encode i) = .ok i := by
  cases i with
  | nop | keysched | encrypt | decrypt | ipinv | round | swap => rfl
  | perm t lenA => exact decode_encode_perm t h
  | rotl lenA n =>
    obtain ⟨hA, hN⟩ := Bool.and_eq_true_iff.1 h
    exact decode_encode_rotl hA hN
  | xor lenA lenB =>
    obtain ⟨hA, hB⟩ := Bool.and_eq_true_iff.1 h
    exact decode_encode_xor hA hB
  | sbox b => exact decode_encode_sbox b

/-! ### A decoded command's word is the word it was decoded from -/

section EncodeOfDecode

variable {w : Word} (hrsv : fieldRsv w = 0)
include hrsv

theorem encode_of_decodePlain {i j : Instr} (hi : encode i = packFields (fieldOp w) 0 0 0 0)
    (h : decodePlain w i = .ok j) : encode j = w := by
  obtain rfl := decodePlain_eq_ok h
  unfold decodePlain at h
  split at h
  case isTrue hz =>
    obtain ⟨hsel, hlenA, hlenB, hn⟩ := hz
    simpa only [hsel, hlenA, hlenB, hn, ← hi] using packFields_fields hrsv
  case isFalse => cases h

theorem encode_of_decodePerm {i : Instr} (hop : fieldOp w = 7) (h : decodePerm w = .ok i) :
    encode i = w := by
  unfold decodePerm at h
  split at h
  · cases h
  next hz =>
    obtain ⟨hlenB, hn⟩ := not_or.1 hz
    split at h
    · cases h
    next t ht =>
      split at h
      · obtain rfl := Except.ok.inj h
        simpa only [encode, selOfPermTable_of_permTableOfSel ht, hop, not_not.1 hlenB, not_not.1 hn]
          using packFields_fields hrsv
      · cases h

theorem encode_of_decodeRotl {i : Instr} (hop : fieldOp w = 8) (h : decodeRotl w = .ok i) :
    encode i = w := by
  unfold decodeRotl at h
  split at h
  · cases h
  next hz =>
    obtain ⟨hsel, hlenB⟩ := not_or.1 hz
    split at h
    · obtain rfl := Except.ok.inj h
      simpa only [encode, hop, not_not.1 hsel, not_not.1 hlenB] using packFields_fields hrsv
    · cases h

theorem encode_of_decodeXor {i : Instr} (hop : fieldOp w = 9) (h : decodeXor w = .ok i) :
    encode i = w := by
  unfold decodeXor at h
  split at h
  · cases h
  next hz =>
    obtain ⟨hsel, hn⟩ := not_or.1 hz
    split at h
    · cases h
    · split at h
      · cases h
      · obtain rfl := Except.ok.inj h
        simpa only [encode, hop, not_not.1 hsel, not_not.1 hn] using packFields_fields hrsv

theorem encode_of_decodeSbox {i : Instr} (hop : fieldOp w = 10) (h : decodeSbox w = .ok i) :
    encode i = w := by
  unfold decodeSbox at h
  split at h
  · cases h
  next hz =>
    obtain ⟨hlenA, hlenB, hn⟩ : fieldLenA w = 0 ∧ fieldLenB w = 0 ∧ fieldN w = 0 := by
      simpa only [not_or, not_not, ne_eq] using hz
    split at h
    · cases h
    next b hb =>
      obtain rfl := Except.ok.inj h
      simpa only [encode, selOfSBox_of_sboxOfSel hb, hop, hlenA, hlenB, hn]
        using packFields_fields hrsv

end EncodeOfDecode

/-- The decoder answers a command only for that command's own word (30_encoding R106). -/
theorem encode_of_decode {w : Word} {i : Instr} (h : decode w = .ok i) : encode i = w := by
  unfold decode at h
  split at h
  · cases h
  next hz =>
    have hrsv : fieldRsv w = 0 := not_not.1 hz
    split at h
    -- PERM, ROTL, XOR, SBOX and the reserved opcodes; the rest are the commands without fields
    case h_8 hop => exact encode_of_decodePerm hrsv hop h
    case h_9 hop => exact encode_of_decodeRotl hrsv hop h
    case h_10 hop => exact encode_of_decodeXor hrsv hop h
    case h_11 hop => exact encode_of_decodeSbox hrsv hop h
    case h_12 => cases h
    all_goals
      next hop => exact encode_of_decodePlain hrsv (by rw [hop]; rfl) h

/-- Settles O2: `decode` and `encode` are inverse to each other on the well-formed commands, so a
command with the word `w` is the one `decode w` answers. -/
theorem everyWordIsOneCommandOrIllegal : Obligations.EveryWordIsOneCommandOrIllegal := by
  intro w
  have decode_of_word (j : Instr) (hj : j.wellFormed = true) (hw : encode j = w) :
      decode w = .ok j := hw ▸ decode_encode hj
  cases hd : decode w with
  | ok i =>
    refine .inl ⟨i, rfl, decode_wellFormed hd, encode_of_decode hd, fun j hj hw => ?_⟩
    exact Except.ok.inj ((decode_of_word j hj hw).symm.trans hd)
  | error r =>
    refine .inr ⟨r, rfl, fun j hj hw => ?_⟩
    cases (decode_of_word j hj hw).symm.trans hd

end Sys2Proof.Machine

/-! ## Proofs: the permutation unit -/

namespace Sys2Proof.Machine

/-- Settles O5: a table within range gathers its positions, any other raises its error. -/
theorem permuteGathersNamedPositions : Obligations.PermuteGathersNamedPositions := by
  intro n tab v T
  refine ⟨fun h => ⟨gather v T, permute_ok tab v h, ?bits, ?width, ?string⟩, permute_error tab v⟩
  case bits => exact fun i hi => gather_getLsbD v T hi
  case width => exact stringOf_length (gather v T)
  case string => exact stringOf_gather v h

end Sys2Proof.Machine

/-! ## Proofs: the XOR/rotate unit -/

namespace Sys2Proof.Machine

/-! ### Rotation, read on strings -/

/-- In the last `k` places of the rotated string stand the `k` bits shifted out at the top, before
them the bits shifted left (41_bitops R150). -/
theorem stringOf_shiftLeft_or_shiftRight {L : Nat} (v : BitVec L) {k : Nat} (h : k ≤ L) :
    stringOf ((v <<< k) ||| (v >>> (L - k))) = strShift (stringOf v) k := by
  apply List.ext_getElem
  · simp only [strShift, List.length_append, List.length_drop, List.length_take, stringOf_length]
    omega
  intro i hi _
  rw [stringOf_length] at hi
  by_cases hik : i < L - k
  · have hkept : k ≤ L - 1 - i := by omega
    have hout : L ≤ L - k + (L - 1 - i) := by omega
    have hplace : L - 1 - i - k = L - 1 - (k + i) := by omega
    have hlt : L - 1 - i < L := by omega
    simp [strShift, stringOf, hik, hkept, hlt, BitVec.getLsbD_of_ge _ _ hout, hplace]
  · have hdropped : L - 1 - i < k := by omega
    have hplace : L - k + (L - 1 - i) = L - 1 - (i - (L - k)) := by omega
    simp [strShift, stringOf, List.getElem_append, hik, hplace, hdropped]

/-- The string shift is the list library's rotation. -/
theorem strShift_eq_rotate {bits : List Bool} {k : Nat} (h : k ≤ bits.length) :
    strShift bits k = bits.rotate k :=
  (List.rotate_eq_drop_append_take h).symm

/-- A value is what the rotation answers exactly when its string is the rotated string. -/
theorem rotL_eq_ok_iff {L k : Nat} (v u : BitVec L) :
    rotL v k = .ok u ↔ k ≤ L ∧ stringOf u = (stringOf v).rotate k := by
  by_cases h : k ≤ L
  · have hstring := stringOf_shiftLeft_or_shiftRight v h
    rw [strShift_eq_rotate (by rwa [stringOf_length])] at hstring
    rw [rotL_ok v h, Except.ok.injEq, ← hstring, and_iff_right h]
    exact ⟨fun hu => congrArg stringOf hu.symm, fun hu => (stringOf_injective hu).symm⟩
  · simp [rotL_error v (Nat.not_le.1 h), h]

/-- Settles O6: the two shifted parts of the register form are the two parts of the string. -/
theorem rotationMovesLeadingCharacters : Obligations.RotationMovesLeadingCharacters :=
  fun _ _ v => ⟨fun h => ⟨_, rotL_ok v h, stringOf_shiftLeft_or_shiftRight v h⟩, rotL_error v⟩

/-- The sum of two legal amounts, reduced modulo the width, is legal, for the width 0 too. -/
theorem add_mod_le_width {L a b : Nat} (ha : a ≤ L) (hb : b ≤ L) : (a + b) % L ≤ L := by
  rcases L.eq_zero_or_pos with rfl | hL
  · rw [Nat.mod_zero]; omega
  · exact (Nat.mod_lt _ hL).le

/-- Two rotations are one by the sum, which on strings counts modulo the width (41_bitops R153). -/
theorem rotL_rotL {L a b : Nat} {v u : BitVec L} (hu : rotL v a = .ok u) (hb : b ≤ L) :
    rotL u b = rotL v ((a + b) % L) := by
  obtain ⟨ha, hua⟩ := (rotL_eq_ok_iff v u).1 hu
  obtain ⟨w, hw⟩ : ∃ w, rotL u b = .ok w := ⟨_, rotL_ok u hb⟩
  obtain ⟨-, hwb⟩ := (rotL_eq_ok_iff u w).1 hw
  have hstring : stringOf w = (stringOf v).rotate ((a + b) % L) :=
    calc stringOf w = (stringOf v).rotate (a + b) := by rw [hwb, hua, List.rotate_rotate]
      _ = (stringOf v).rotate ((a + b) % L) := by rw [← List.rotate_mod, stringOf_length]
  rw [hw, (rotL_eq_ok_iff v w).2 ⟨add_mod_le_width ha hb, hstring⟩]

/-- Settles O7: on strings these are the laws of the rotation of lists. -/
theorem rotationsCompose : Obligations.RotationsCompose := by
  intro L v
  refine ⟨(rotL_eq_ok_iff v v).2 ⟨L.zero_le, ?zero⟩, (rotL_eq_ok_iff v v).2 ⟨le_rfl, ?width⟩,
    fun a b ha hb => ⟨_, rotL_ok v ha, rotL_rotL (rotL_ok v ha) hb⟩⟩
  case zero => exact (List.rotate_zero _).symm
  case width => simpa [stringOf_length] using (stringOf v).rotate_length.symm

/-! ### Exclusive OR -/

/-- The same positions of the two strings pair up (41_bitops R152). -/
theorem stringOf_xor {l : Nat} (a b : BitVec l) :
    stringOf (a ^^^ b) = strXor (stringOf a) (stringOf b) := by
  simp [stringOf, strXor, List.zipWith_map]

/-- Settles O8: for equal widths the unit is the exclusive OR of bit vectors. -/
theorem xorUnitLaws : Obligations.XorUnitLaws := by
  refine ⟨fun _ _ a b => xorBits_error a b, fun l a b =>
    ⟨⟨a ^^^ b, xorBits_same a b, ?bits, ?string, ?undo⟩, ?self, ?zero⟩⟩
  case bits => exact fun i _ => BitVec.getLsbD_xor
  case string => exact stringOf_xor a b
  case undo => rw [xorBits_same, BitVec.xor_assoc, BitVec.xor_self, BitVec.xor_zero]
  case self => rw [xorBits_same, BitVec.xor_self]; rfl
  case zero => rw [xorBits_same]; exact congrArg _ BitVec.xor_zero

end Sys2Proof.Machine

/-! ## Proofs: the Feistel round unit -/

namespace Sys2Proof.Machine

/-! ### The halves of a block -/

@[simp] theorem highHalf_append (l r : BitVec 4) : highHalf (l ++ r) = l :=
  BitVec.extractLsb'_append_eq_left

@[simp] theorem lowHalf_append (l r : BitVec 4) : lowHalf (l ++ r) = r :=
  BitVec.extractLsb'_append_eq_right

@[simp] theorem highHalf_append_lowHalf (b : BitVec 8) : highHalf b ++ lowHalf b = b :=
  BitVec.extractLsb'_append_extractLsb'

/-- A block is put together from two halves exactly when they are its halves. -/
theorem append_eq_iff_halves {l r : BitVec 4} {c : BitVec 8} :
    l ++ r = c ↔ highHalf c = l ∧ lowHalf c = r := by
  constructor
  · rintro rfl
    exact ⟨highHalf_append l r, lowHalf_append l r⟩
  · rintro ⟨rfl, rfl⟩
    exact highHalf_append_lowHalf c

/-! ### One round -/

/-- The round is F of the right half followed by the exclusive OR on the left one. -/
theorem feistelRound_eq_map (b sk : BitVec 8) (t : RoundTables) :
    feistelRound b sk t =
      (roundF (lowHalf b) sk t).map fun f => (f ^^^ highHalf b) ++ lowHalf b := by
  simp only [feistelRound, xorBits_same]
  rfl

/-- What a round answers, said by halves: the right one passes through, the left one is mixed with F
of the right one (44_feistel_round R200). -/
theorem feistelRound_eq_ok_iff {b c sk : BitVec 8} {t : RoundTables} :
    feistelRound b sk t = .ok c ↔ lowHalf c = lowHalf b ∧
      ∃ f, roundF (lowHalf b) sk t = .ok f ∧ highHalf c = highHalf b ^^^ f := by
  rw [feistelRound_eq_map]
  constructor
  · intro h
    obtain ⟨f, hf, hc⟩ := map_eq_ok h
    obtain ⟨hhigh, hlow⟩ := append_eq_iff_halves.1 hc
    exact ⟨hlow, f, hf, by rw [hhigh, BitVec.xor_comm]⟩
  · rintro ⟨hlow, f, hf, hhigh⟩
    have hc : (f ^^^ highHalf b) ++ lowHalf b = c :=
      append_eq_iff_halves.2 ⟨by rw [hhigh, BitVec.xor_comm], hlow⟩
    rw [hf, Except.map, hc]

/-- A round from `b` to `c` is one from `c` to `b`: F sees the same right half, and mixing with it
twice restores the left one (44_feistel_round R201). -/
theorem feistelRound_undo {b c sk : BitVec 8} {t : RoundTables} (h : feistelRound b sk t = .ok c) :
    feistelRound c sk t = .ok b := by
  obtain ⟨hlow, f, hf, hhigh⟩ := feistelRound_eq_ok_iff.1 h
  have hback : highHalf b = highHalf c ^^^ f := by
    rw [hhigh, BitVec.xor_assoc, BitVec.xor_self, BitVec.xor_zero]
  exact feistelRound_eq_ok_iff.2 ⟨hlow.symm, f, by rw [hlow, hf], hback⟩

/-- Settles O9: a round is known by its halves, and in that form it reads the same from `c` to `b`. -/
theorem roundIsItsOwnInverse : Obligations.RoundIsItsOwnInverse := by
  intro b c sk t h
  obtain ⟨hlow, hleft⟩ := feistelRound_eq_ok_iff.1 h
  exact ⟨hlow, hleft, feistelRound_undo h⟩

end Sys2Proof.Machine

/-! ## Proofs: the inverse of IP, and decryption undoing encryption -/

namespace Sys2Proof.Machine

/-! ### The derived inverse -/

/-- Each of the numbers 1 to 8 stands in the derived inverse, which has eight entries: it is a
permutation of them (45_cipher_engine R215). -/
theorem range'_perm_invertTable {x : Inputs} (h : entriesWithin 8 x.tableIp)
    (hn : x.tableIp.Nodup) : (List.range' 1 8).Perm (invertTable x.tableIp) := by
  obtain ⟨hlen, hinv⟩ := invertTable_inverseIs x h hn
  have hsub : List.range' 1 8 ⊆ invertTable x.tableIp := by
    intro v hv
    obtain ⟨i, hi, rfl⟩ := List.mem_range'.1 hv
    rw [one_mul, Nat.add_comm]
    exact List.mem_of_getElem? (hinv i hi)
  exact (List.subperm_of_subset List.nodup_range' hsub).perm_of_length_le (by rw [hlen, List.length_range'])

theorem ipInverse_error {x : Inputs} (h : ¬ x.tableOk .ip = true) :
    ipInverse x = .error (.configuration .ip) := by
  rw [ipInverse, checkTables, if_neg h]
  rfl

/-- Settles O10: the loop writes the inverse of a legal IP, and the check comes before it. -/
theorem ipInverseInvertsIp : Obligations.IpInverseInvertsIp := by
  refine ⟨fun x h hn => ⟨invertTable x.tableIp, ipInverse_ok ((tableOk_ip x).2 ⟨h, hn⟩),
    invertTable_inverseIs x h hn, invertTable_entriesWithin h hn, ?nodup⟩,
    fun x hbad => ⟨ipInverse_error (mt (tableOk_ip x).1 hbad), rfl⟩, ?default, ?packed⟩
  case nodup => exact (range'_perm_invertTable h hn).nodup_iff.1 List.nodup_range'
  case default => decide
  case packed => decide

/-! ### IP and its inverse on strings -/

theorem strApply_length (bits : List Bool) (T : List Nat) : (strApply bits T).length = T.length :=
  List.length_map _

theorem strApply_getD (bits : List Bool) {T : List Nat} {i : Nat} (h : i < T.length) :
    (strApply bits T).getD i false = bits.getD (T.getD i 0 - 1) false := by
  simp [strApply, h]

/-- Two strings of eight characters are equal when their characters are. -/
theorem eq_of_getD_eq {a b : List Bool} (ha : a.length = 8) (hb : b.length = 8)
    (h : ∀ i < 8, a.getD i false = b.getD i false) : a = b := by
  refine List.ext_getElem (ha.trans hb.symm) fun i hia hib => ?_
  simpa [hia, hib] using h i (ha ▸ hia)

/-- The inverse of IP, read through an entry of IP. -/
theorem Inputs.inverseIs.getD {x : Inputs} {inv : List Nat} (h : x.inverseIs inv) {i : Nat}
    (hi : i < 8) : x.tableIp.getD i 0 - 1 < inv.length ∧
      inv.getD (x.tableIp.getD i 0 - 1) 0 = i + 1 := by
  obtain ⟨hlt, hval⟩ := List.getElem?_eq_some_iff.1 (h.2 i hi)
  exact ⟨hlt, (List.getD_eq_getElem _ _ hlt).trans hval⟩

theorem strApply_inverse_ip {x : Inputs} {inv : List Nat} (h : x.inverseIs inv) {bits : List Bool}
    (hbits : bits.length = 8) : strApply (strApply bits inv) x.tableIp = bits := by
  refine eq_of_getD_eq ((strApply_length _ _).trans (tableIp_length x)) hbits fun i hi => ?_
  obtain ⟨hlt, hval⟩ := h.getD hi
  rw [strApply_getD _ (hi.trans_eq (tableIp_length x).symm), strApply_getD _ hlt, hval,
    Nat.add_sub_cancel]

/-- Every position is named by an entry of IP, and there the inverse leads back. -/
theorem strApply_ip_inverse {x : Inputs} {inv : List Nat} (h : x.inverseIs inv)
    (hin : entriesWithin 8 x.tableIp) (hn : x.tableIp.Nodup) {bits : List Bool}
    (hbits : bits.length = 8) : strApply (strApply bits x.tableIp) inv = bits := by
  refine eq_of_getD_eq ((strApply_length _ _).trans h.1) hbits fun p hp => ?_
  obtain ⟨i, hi, hip⟩ := List.mem_iff_getElem.1 (mem_tableIp hin hn (p := p + 1) (by omega))
  have hentry : x.tableIp.getD i 0 - 1 = p := by
    rw [List.getD_eq_getElem _ _ hi, hip, Nat.add_sub_cancel]
  obtain ⟨hlt, hval⟩ := h.getD (hi.trans_eq (tableIp_length x))
  rw [hentry] at hlt hval
  rw [strApply_getD _ hlt, hval, Nat.add_sub_cancel, strApply_getD _ hi, hentry]

/-! ### IP and its inverse on blocks -/

/-- Stage 2 on a block: IP of a legal table (45_cipher_engine R219). -/
def Inputs.permuteIp (x : Inputs) (b : BitVec 8) : BitVec 8 :=
  (gather b x.tableIp).setWidth 8

/-- Stage 6 on a block: the derived inverse of IP (45_cipher_engine R219). -/
def Inputs.permuteIpInv (x : Inputs) (b : BitVec 8) : BitVec 8 :=
  (gather b (invertTable x.tableIp)).setWidth 8

theorem stringOf_setWidth_of_eq {m n : Nat} (h : m = n) (v : BitVec m) :
    stringOf (v.setWidth n) = stringOf v := by
  subst h
  rw [BitVec.setWidth_eq]

theorem stringOf_permuteIp {x : Inputs} (h : entriesWithin 8 x.tableIp) (b : BitVec 8) :
    stringOf (x.permuteIp b) = strApply (stringOf b) x.tableIp :=
  (stringOf_setWidth_of_eq (tableIp_length x) _).trans (stringOf_gather b h)

theorem stringOf_permuteIpInv {x : Inputs} (h : entriesWithin 8 x.tableIp) (hn : x.tableIp.Nodup)
    (b : BitVec 8) : stringOf (x.permuteIpInv b) = strApply (stringOf b) (invertTable x.tableIp) :=
  (stringOf_setWidth_of_eq (invertTable_inverseIs x h hn).1 _).trans
    (stringOf_gather b (invertTable_entriesWithin h hn))

theorem permuteIp_permuteIpInv {x : Inputs} (h : entriesWithin 8 x.tableIp) (hn : x.tableIp.Nodup)
    (b : BitVec 8) : x.permuteIp (x.permuteIpInv b) = b := by
  apply stringOf_injective
  rw [stringOf_permuteIp h, stringOf_permuteIpInv h hn,
    strApply_inverse_ip (invertTable_inverseIs x h hn) (stringOf_length b)]

theorem permuteIpInv_permuteIp {x : Inputs} (h : entriesWithin 8 x.tableIp) (hn : x.tableIp.Nodup)
    (b : BitVec 8) : x.permuteIpInv (x.permuteIp b) = b := by
  apply stringOf_injective
  rw [stringOf_permuteIpInv h hn, stringOf_permuteIp h,
    strApply_ip_inverse (invertTable_inverseIs x h hn) h hn (stringOf_length b)]

/-! ### The rounds, forwards and back -/

@[simp] theorem swapHalves_swapHalves (b : BitVec 8) : swapHalves (swapHalves b) = b := by
  simp [swapHalves]

/-- Under a legal IP only the Feistel rounds are left to answer: two of them with the swap between,
framed by IP and its inverse (45_cipher_engine R219, R220). -/
theorem cipherRounds_eq {x : Inputs} (h : entriesWithin 8 x.tableIp) (hn : x.tableIp.Nodup)
    (block ka kb : BitVec 8) :
    cipherRounds x block ka kb = (do
      let r1 ← feistelRound (x.permuteIp block) ka x.roundTables
      let r2 ← feistelRound (swapHalves r1) kb x.roundTables
      return (x.permuteIpInv r2, invertTable x.tableIp)) := by
  simp only [cipherRounds, permute_ok _ _ h, ipInverse_ok ((tableOk_ip x).2 ⟨h, hn⟩),
    permute_ok _ _ (invertTable_entriesWithin h hn), bind, Except.bind]
  rfl

/-- The rounds run back with the subkeys exchanged: IP undoes its inverse, each Feistel round undoes
itself, and the second round taken back is the first one of the way back (45_cipher_engine R222). -/
theorem cipherRounds_undo {x : Inputs} (h : entriesWithin 8 x.tableIp) (hn : x.tableIp.Nodup)
    {block ka kb c : BitVec 8} {inv : List Nat} (hr : cipherRounds x block ka kb = .ok (c, inv)) :
    cipherRounds x c kb ka = .ok (block, inv) := by
  rw [cipherRounds_eq h hn] at hr ⊢
  obtain ⟨r1, h1, hr⟩ := bind_eq_ok hr
  obtain ⟨r2, h2, hr⟩ := bind_eq_ok hr
  obtain ⟨rfl, rfl⟩ := Prod.mk.inj (Except.ok.inj hr)
  have hback2 : feistelRound (x.permuteIp (x.permuteIpInv r2)) kb x.roundTables
      = .ok (swapHalves r1) := by rw [permuteIp_permuteIpInv h hn, feistelRound_undo h2]
  have hback1 : feistelRound (swapHalves (swapHalves r1)) ka x.roundTables
      = .ok (x.permuteIp block) := by rw [swapHalves_swapHalves, feistelRound_undo h1]
  simp only [hback2, hback1, bind, Except.bind, permuteIpInv_permuteIp h hn]
  rfl

/-! ### The commands -/

/-- The conditions on the tables are the five checks of ENCRYPT and DECRYPT. -/
theorem tablesLegal_iff (x : Inputs) :
    x.tablesLegal ↔ ∀ t ∈ checkedTables .encrypt, x.tableOk t = true := by
  simp [checkedTables, Inputs.tablesLegal, tableOk_p10, tableOk_p8, tableOk_ip, tableOk_ep, tableOk_p4]

theorem checkTables_of_tablesLegal {x : Inputs} (h : x.tablesLegal) :
    checkTables x [.p10, .p8, .ip, .ep, .p4] = .ok () :=
  checkTables_ok ((tablesLegal_iff x).1 h)

section LegalTables

variable {s : State} {k1 k2 c : BitVec 8} {inv : List Nat} (h : s.inputs.tablesLegal)
  (hk : keySchedule s.inputs.key s.inputs.tableP10 s.inputs.tableP8 = .ok (k1, k2))

include h hk

/-- ENCRYPT writes what the rounds answer with K1 first (45_cipher_engine R223). -/
theorem exec_encrypt_of_rounds (hr : cipherRounds s.inputs s.inputs.din k1 k2 = .ok (c, inv)) :
    exec .encrypt s = .next (s.writeCipher ⟨c, k1, k2, inv⟩).completeOk := by
  simp only [exec, execEncrypt, encryptResult, checkTables_of_tablesLegal h, hk, hr, bind,
    Except.bind]
  rfl

/-- DECRYPT writes what the rounds answer with K2 first (45_cipher_engine R224). -/
theorem exec_decrypt_of_rounds (hr : cipherRounds s.inputs s.inputs.din k2 k1 = .ok (c, inv)) :
    exec .decrypt s = .next (s.writeCipher ⟨c, k1, k2, inv⟩).completeOk := by
  simp only [exec, execDecrypt, decryptResult, checkTables_of_tablesLegal h, hk, hr, bind,
    Except.bind]
  rfl

end LegalTables

/-- Settles O26: both commands run the rounds with one schedule, in opposite orders of its subkeys. -/
theorem encryptAndDecryptUndoEachOther : Obligations.EncryptAndDecryptUndoEachOther := by
  intro s h
  obtain ⟨⟨⟨k1, k2⟩, hk⟩, hrounds⟩ := scheduleAndRounds_ok ((tablesLegal_iff s.inputs).1 h)
  have ⟨_, _, ⟨hip, hn⟩, _⟩ := h
  constructor
  · obtain ⟨⟨ct, inv⟩, hr⟩ := hrounds s.inputs.din k1 k2
    exact ⟨_, _, exec_encrypt_of_rounds h hk hr,
      exec_decrypt_of_rounds h hk (cipherRounds_undo hip hn hr), rfl⟩
  · obtain ⟨⟨pt, inv⟩, hr⟩ := hrounds s.inputs.din k2 k1
    exact ⟨_, _, exec_decrypt_of_rounds h hk hr,
      exec_encrypt_of_rounds h hk (cipherRounds_undo hip hn hr), rfl⟩

end Sys2Proof.Machine

/-! ## Proofs: errors, the interrupt level, and illegal words -/

namespace Sys2Proof.Machine

/-! ### The first failing check -/

theorem exec_of_firstError_some {i : Instr} {s : State} {e : CmdError}
    (h : firstError i s.inputs = some e) : exec i s = .next (s.completeError e) := by
  have hr : commandResult i s.inputs = .error e := by
    simpa [h, Reports] using commandResult_reports i s.inputs
  rw [exec_eq_complete, hr, complete_error]

theorem exec_of_firstError_none {i : Instr} {s : State} (h : firstError i s.inputs = none) :
    ∃ w, exec i s = .next (s.applyWrites w).completeOk := by
  obtain ⟨w, hw⟩ : ∃ w, commandResult i s.inputs = .ok w := by
    simpa [h, Reports] using commandResult_reports i s.inputs
  exact ⟨w, by rw [exec_eq_complete, hw, complete_ok]⟩

theorem completionStep_of_legal {s : State} {i : Instr} (h : decode s.cmd = .ok i) :
    completionStep s = exec i s := by
  simp only [completionStep, h]

theorem completionStep_of_illegal {s : State} {r : IllegalWord} (h : decode s.cmd = .error r) :
    completionStep s = .next (s.completeError .illegalCommand) := by
  simp only [completionStep, h]

/-- Settles O27: a command's result reports its first failing check, and a successful completion
touches the outputs, RESLEN and the completion fields alone. -/
theorem commandsReportTheFirstFailingCheck : Obligations.CommandsReportTheFirstFailingCheck := by
  refine fun i s => ⟨fun e he => ?_, fun hnone => ?_, completionStep_of_legal, fun r =>
    completionStep_of_illegal⟩
  · obtain ⟨hecode, herrtab⟩ := e.codes_eq
    rw [exec_of_firstError_some he, completeError_eq_failed, hecode, herrtab]
  · obtain ⟨w, hw⟩ := exec_of_firstError_none hnone
    exact ⟨(s.applyWrites w).outputs, (s.applyWrites w).status.reslen, hw⟩

/-! ### The interrupt level -/

theorem resetsNow_of_writesNow {s : State} {p : Reg × Word} (h : s.writesNow = some p) :
    s.resetsNow = false := by
  rw [State.resetsNow, decide_eq_false_iff_not]
  intro he
  simp [State.writesNow, he] at h

theorem resetsNow_of_completesNow {s : State} (h : s.completesNow = true) :
    s.resetsNow = false := by
  simpa using (Bool.and_eq_true_iff.1 h).2

theorem hostPart_irqen_of_ctrl {s : State} {v : Word} (h : s.writesNow = some (.ctrl, v)) :
    s.hostPart.irqen = v.getLsbD 0 := by
  simp [State.hostPart, h, writeReg, Reg.access]

/-- The host sets IRQEN to bit [0] of a write to CTRL, and leaves it alone otherwise (10_state R33). -/
theorem hostPart_irqen (s : State) :
    (∃ v, s.writesNow = some (.ctrl, v) ∧ s.hostPart.irqen = v.getLsbD 0) ∨
    ((∀ v, s.writesNow ≠ some (.ctrl, v)) ∧ s.hostPart.irqen = s.irqen) := by
  cases hw : s.writesNow with
  | none => exact .inr ⟨by simp, by simp [State.hostPart, hw]⟩
  | some p =>
    obtain ⟨r, v⟩ := p
    by_cases hr : r = .ctrl
    · subst hr
      exact .inl ⟨v, rfl, hostPart_irqen_of_ctrl hw⟩
    · refine .inr ⟨fun u hu => hr (congrArg Prod.fst (Option.some.inj hu)), ?_⟩
      obtain ⟨-, h⟩ | ⟨-, h⟩ | ⟨hctrl, -⟩ | ⟨-, -, h⟩ | ⟨-, -, h⟩ | ⟨-, -, h⟩ :=
        writeReg_state s.takeEvent r v
      case inr.inr.inl => exact absurd hctrl hr
      all_goals simp [State.hostPart, hw, h]

/-- No completion touches IRQEN. -/
theorem step_irqen {s t : State} (h : step s = .next t) :
    t.irqen = if s.resetsNow then false else s.hostPart.irqen := by
  cases step_effect h with
  | reset hr => simp [hr]
  | quiet reply hr hc => simp [hr]
  | fails reply e hr hc he => simp [hr]
  | succeeds reply i w hr hc he hd hw => simp [hr, State.applyWrites]

/-- When the interrupt level is high after a step: without a reset, with IRQEN set after the host's part
of the cycle, and with DONE set by a completion or neither accepted away nor cleared. -/
theorem step_irq {s t : State} (h : step s = .next t) :
    t.irq = true ↔ s.resetsNow = false ∧ s.hostPart.irqen = true ∧
      (s.completesNow = true ∨
        s.acceptsNow = none ∧ s.status.done = true ∧ s.clearsNow 1 = false) := by
  rw [State.irq, step_irqen h, doneChangesOnlyByRule s t h]
  cases s.resetsNow with
  | true => simp
  | false => cases s.completesNow <;> cases s.acceptsNow <;> simp

theorem readReg_ctrl_eq_one {s : State} : s.readReg .ctrl = 1 ↔ s.irqen = true := by
  rw [State.readReg]
  cases s.irqen <;> decide

/-- DONE is bit [1] of STATUS (10_state R35). -/
theorem readReg_status_done (s : State) : (s.readReg .status).getLsbD 1 = s.status.done := by
  rw [State.readReg, Status.word]
  simp only [BitVec.getLsbD_append]
  simp

/-- Settles O52: a level that was low while DONE stays set can only have been disabled. -/
theorem irqRisesAtCompletionOrEnable : Obligations.IrqRisesAtCompletionOrEnable := by
  refine fun s t h => ⟨?level, fun hlow hhigh => ?rises, fun hc hen => ?completion,
    fun v hw hv hd => ?enable⟩
  case level => rw [readReg_ctrl_eq_one, readReg_status_done, State.irq, Bool.and_eq_true]
  case rises =>
    obtain ⟨-, hen, hc | ⟨-, hd, -⟩⟩ := (step_irq h).1 hhigh
    · exact .inl hc
    · obtain ⟨v, hw, hv⟩ | ⟨-, hkept⟩ := hostPart_irqen s
      · exact .inr ⟨v, hw, hv.symm.trans hen, hd⟩
      · simp [State.irq, hd, ← hkept, hen] at hlow
  case completion =>
    have hr := resetsNow_of_completesNow hc
    rw [step_irqen h, hr] at hen
    exact (step_irq h).2 ⟨hr, hen, .inl hc⟩
  case enable =>
    have ha : s.acceptsNow = none := by simp [State.acceptsNow, hw]
    have hclear : s.clearsNow 1 = false := by simp [State.clearsNow, hw]
    exact (step_irq h).2 ⟨resetsNow_of_writesNow hw, (hostPart_irqen_of_ctrl hw).trans hv,
      .inr ⟨ha, hd, hclear⟩⟩

theorem completesNow_of_acceptsNow {s : State} (h : s.acceptsNow.isSome = true) :
    s.completesNow = false := by
  by_contra hc
  rw [Bool.not_eq_false] at hc
  simp [acceptsNow_of_busy (busy_of_completesNow hc)] at h

/-- Settles O53: each cause denies one of the conditions for a high level, and without any of them IRQEN
and DONE stay set. -/
theorem irqFallsOnlyByClearAcceptDisableReset : Obligations.IrqFallsOnlyByClearAcceptDisableReset := by
  intro s t h
  refine ⟨fun hcl hc => ?clear, fun ha => ?accept, fun v hw hv => ?disable, fun hr => ?reset,
    fun hhigh hlow => ?falls⟩
  case falls =>
    by_contra! hnone
    obtain ⟨hcl, ha, hr, hctrl⟩ := hnone
    obtain ⟨hen, hd⟩ := Bool.and_eq_true_iff.1 hhigh
    have hen' : s.hostPart.irqen = true := by
      obtain ⟨v, hw, hv⟩ | ⟨-, hkept⟩ := hostPart_irqen s
      · simpa [hv] using hctrl v hw
      · exact hkept.trans hen
    have hstays : t.irq = true := (step_irq h).2
      ⟨by simpa using hr, hen', .inr ⟨by simpa using ha, hd, by simpa using hcl⟩⟩
    simp [hstays] at hlow
  all_goals rw [← Bool.not_eq_true, step_irq h]
  case clear => simp [hcl, hc]
  case accept => simp [completesNow_of_acceptsNow ha, Option.isSome_iff_ne_none.1 ha]
  case disable => rw [hostPart_irqen_of_ctrl hw, hv]; simp
  case reset => simp [hr]

/-! ### An illegal word from its acceptance to its completion -/

theorem event_of_inbox_cons {s : State} {e : HostEvent} {es : List HostEvent}
    (h : s.inbox = e :: es) : s.event = e := by
  simp [State.event, h]

theorem event_of_inbox_nil {s : State} (h : s.inbox = []) : s.event = .idle := by
  simp [State.event, h]

theorem run_one (s : State) : Host.Core.run Sys2Proof.core 1 s = step s := by
  cases h : step s with
  | next t => exact run_succ_next 0 h
  | fault r => exact run_succ_fault 0 h
  | refused r => exact run_succ_refused 0 h

/-- The step in which an idle engine accepts a word (70_reset_and_hazards R296). -/
theorem step_accepts {s : State} {w : Word} (hb : s.status.busy = false)
    (he : s.event = .access (.write (Config.sdesBase + 8) 4 w)) :
    step s = .next { s.takeEvent.accept w with resp := some BusReply.written } := by
  have hbus : busAccess s.takeEvent 8 (.write (Config.sdesBase + 8) 4 w) =
      (BusReply.written, s.takeEvent.accept w) := by
    rw [show 8 = Reg.cmd.offset from rfl, busAccess_write_offset]
    simp [writeReg, Reg.access, hb]
  rw [step_access he (windowOffset_base (by omega)), hb, State.afterAccess, hbus]
  rfl

/-- Left alone by the host, a busy engine counts down and then completes the word in CMD. -/
theorem run_to_completion (n : Nat) {s : State} (hb : s.status.busy = true) (hi : s.inbox = [])
    (hc : s.count = n + 1) :
    Host.Core.run Sys2Proof.core (n + 1) s = completionStep { s with count := 0, resp := none } := by
  induction n generalizing s with
  | zero =>
    have hlast : s.takeEvent.countDown = { s with count := 0, resp := none } := by
      simp [State.countDown, State.takeEvent, hi, hc]
    rw [run_one, step_idle (event_of_inbox_nil hi), hb, engineCycle, hlast]
    rfl
  | succ n ih =>
    have hstep : step s = .next s.takeEvent.countDown := by
      rw [step_idle (event_of_inbox_nil hi), hb, engineCycle]
      simp [hc]
    have hrest := ih (s := s.takeEvent.countDown) hb (by simp [hi]) (by simp [hc])
    have hkept : ({ s.takeEvent.countDown with count := 0, resp := none } : State) =
        { s with count := 0, resp := none } := by
      simp [State.countDown, State.takeEvent, hi]
    rw [hkept] at hrest
    exact (run_succ_next _ hstep).trans hrest

/-- From acceptance on, the completion step comes after the latency of the word, and sees the state of
the acceptance with its word in CMD (70_reset_and_hazards R296, R297). -/
theorem run_accepted {s : State} {w : Word} (hb : s.status.busy = false)
    (hi : s.inbox = [.access (.write (Config.sdesBase + 8) 4 w)]) :
    Host.Core.run Sys2Proof.core (Config.lat (latencyClass w) + 1) s =
      completionStep { s.accept w with count := 0, inbox := [], resp := none } := by
  have htail : s.takeEvent.accept w = { s.accept w with inbox := [], resp := none } := by
    simp [State.accept, State.takeEvent, hi]
  have hstep := step_accepts hb (event_of_inbox_cons hi)
  rw [htail] at hstep
  exact (run_succ_next _ hstep).trans (run_to_completion _ rfl rfl rfl)

theorem readReg_congr {s t : State} (hirqen : t.irqen = s.irqen) (hin : t.inputs = s.inputs)
    (hout : t.outputs = s.outputs) {q : Reg} (hcmd : q ≠ .cmd) (hstatus : q ≠ .status) :
    t.readReg q = s.readReg q := by
  cases q with
  | cmd => exact absurd rfl hcmd
  | status => exact absurd rfl hstatus
  | _ => simp only [State.readReg, *]

/-- Settles O56: the wait ends with the error completion of the accepted state. -/
theorem illegalWordCompletesWithIllegalCommand :
    Obligations.IllegalWordCompletesWithIllegalCommand := by
  intro s w r hb hi hd
  have hrun := run_accepted hb hi
  rw [show latencyClass w = none by simp only [latencyClass, hd]] at hrun
  refine ⟨⟨_, (run_one s).trans (step_accepts hb (event_of_inbox_cons hi)), rfl, rfl⟩,
    _, hrun.trans (completionStep_of_illegal hd), rfl, rfl, rfl, rfl, rfl, rfl, rfl, rfl,
    fun q hcmd hstatus => ?_⟩
  refine readReg_congr ?_ ?_ ?_ hcmd hstatus <;> rfl

end Sys2Proof.Machine

/-! ## Proofs: writes to an idle and to a busy engine, and reset -/

namespace Sys2Proof.Machine

/-! ### What a legal write answers, by register and BUSY -/

theorem writeReg_ctrl (s : State) (v : Word) :
    writeReg s .ctrl v = (BusReply.written, s.writeCtrl v) := rfl

theorem writeReg_status (s : State) (v : Word) :
    writeReg s .status v = (BusReply.written, s.writeStatus v) := rfl

theorem writeReg_cmd_of_idle {s : State} (hb : s.status.busy = false) (w : Word) :
    writeReg s .cmd w = (BusReply.written, s.accept w) := by
  simp [writeReg, Reg.access, hb]

theorem writeReg_of_busy {s : State} {r : Reg} (hb : s.status.busy = true)
    (h : r.access = .issue ∨ r.access = .input) (v : Word) :
    writeReg s r v = (BusReply.failed, s.discardWrite) := by
  obtain h | h := h <;> simp [writeReg, h, hb]

/-- Settles O35: the write to CMD reaches the acceptance. -/
theorem idleCmdWriteIsAccepted : Obligations.IdleCmdWriteIsAccepted := fun s addr w hb =>
  (busAccess_write_offset s .cmd addr w).trans (writeReg_cmd_of_idle hb w)

/-- Settles O34: CMD and the input registers are those whose writes BUSY discards; CTRL, STATUS and
reads do not look at it. -/
theorem busyWritesAreDiscarded : Obligations.BusyWritesAreDiscarded := by
  intro s addr v hb
  have hctrl := (busAccess_write_offset s .ctrl addr v).trans (writeReg_ctrl s v)
  have hstatus := (busAccess_write_offset s .status addr v).trans (writeReg_status s v)
  refine ⟨fun r hr => ?_, congrArg Prod.fst hctrl, congrArg Prod.snd hctrl, congrArg Prod.fst hstatus,
    congrArg Prod.snd hstatus, fun r => busAccess_read_offset s r addr⟩
  have haccess : ∀ q ∈ [Reg.cmd, .key, .din, .opa, .opb, .p10a, .p10b, .p8, .ip, .ep, .p4, .s0, .s1],
      q.access = .issue ∨ q.access = .input := by decide
  exact (busAccess_write_offset s r addr v).trans (writeReg_of_busy hb (haccess r hr) v)

/-! ### Reset -/

/-- The map of 10_state R31 lists the registers of the reset state in order. -/
theorem resetMap_eq : resetMap = Reg.inMapOrder.map fun r => (r.offset, State.reset.readReg r) := by
  decide

theorem readReg_afterReset (s : State) (r : Reg) :
    s.afterReset.readReg r = State.reset.readReg r := by
  cases r <;> rfl

/-- An idle engine whose host does nothing stays as it is. -/
theorem step_of_quiescent {s : State} (hb : s.status.busy = false) (hi : s.inbox = [])
    (hr : s.resp = none) : step s = .next s := by
  have htake : s.takeEvent = s := by
    cases s
    simp_all [State.takeEvent]
  rw [step_idle (event_of_inbox_nil hi), hb, htake]
  rfl

theorem run_of_quiescent {s : State} (hb : s.status.busy = false) (hi : s.inbox = [])
    (hr : s.resp = none) (k : Nat) : Host.Core.run Sys2Proof.core k s = .next s := by
  induction k with
  | zero => exact run_zero s
  | succ k ih => exact (run_succ_next k (step_of_quiescent hb hi hr)).trans ih

/-- Settles O54: the step of a reset leaves the reset state and the host's later events, an idle engine
with nothing left to complete. -/
theorem resetGivesTheListedValues : Obligations.ResetGivesTheListedValues := by
  intro s h
  refine ⟨s.afterReset, step_reset (of_decide_eq_true h), ?map, rfl, rfl, rfl,
    fun k hi => run_of_quiescent rfl hi rfl k,
    fun addr w => ⟨_, idleCmdWriteIsAccepted s.afterReset addr w rfl, rfl, rfl⟩⟩
  case map =>
    rw [resetMap_eq, List.forall_mem_map]
    intro r _ addr
    rw [← readReg_afterReset s r]
    exact busAccess_read_offset s.afterReset r addr

end Sys2Proof.Machine

/-! ## Proofs: which words are commands -/

namespace Sys2Proof.Machine

/-- Settles O1: every field of a packed word reads back. -/
theorem decodeReadsBackEveryEncodedCommand : Obligations.DecodeReadsBackEveryEncodedCommand :=
  fun _ h => decode_encode h

/-- Settles O4: each listed word is the word of its command. -/
theorem listedWordsDecodeToTheirCommands : Obligations.ListedWordsDecodeToTheirCommands :=
  ⟨decode_encode (i := .nop) rfl, decode_encode (i := .keysched) rfl, decode_encode (i := .encrypt) rfl,
    decode_encode (i := .decrypt) rfl, decode_encode (i := .ipinv) rfl, decode_encode (i := .round) rfl,
    decode_encode (i := .swap) rfl, decode_encode (i := .perm .ipInv 8) rfl,
    decode_encode (i := .rotl 10 15) rfl, decode_encode (i := .xor 9 10) rfl,
    decode_encode (i := .sbox .s1) rfl⟩

/-! ### The fields as digits of the word's numeral -/

/-- The fields of a word whose numeral is written out in them (30_encoding R100). -/
theorem fields_of_toNat {w : Word} {op sel la lb n rsv : Nat}
    (hw : w.toNat = op + 16 * sel + 256 * la + 4096 * lb + 65536 * n + 1048576 * rsv)
    (hop : op < 16) (hsel : sel < 16) (hla : la < 16) (hlb : lb < 16) (hn : n < 16) :
    fieldOp w = op ∧ fieldSel w = sel ∧ fieldLenA w = la ∧ fieldLenB w = lb ∧ fieldN w = n ∧
      fieldRsv w = rsv := by
  have hlt := w.isLt
  simp only [fieldRsv, fieldOp, fieldSel, fieldLenA, fieldLenB, fieldN, BitVec.extractLsb'_toNat,
    Nat.shiftRight_eq_div_pow, hw] at hlt ⊢
  omega

/-! ### What each part of the decoder refuses -/

theorem lenLegal_iff {l : Nat} : lenLegal l = true ↔ ¬ (l = 0 ∨ 10 < l) := by
  simp only [lenLegal, Bool.and_eq_true, decide_eq_true_eq]
  omega

theorem permTableOfSel_eq_none {k : Nat} : permTableOfSel k = none ↔ 5 < k := by
  constructor
  · intro h
    by_contra hk
    rw [Nat.not_lt] at hk
    interval_cases k <;> cases h
  · intro h
    obtain ⟨m, rfl⟩ := Nat.exists_eq_add_of_le' h
    rfl

theorem sboxOfSel_eq_none {k : Nat} : sboxOfSel k = none ↔ 1 < k := by
  constructor
  · intro h
    by_contra hk
    rw [Nat.not_lt] at hk
    interval_cases k <;> cases h
  · intro h
    obtain ⟨m, rfl⟩ := Nat.exists_eq_add_of_le' h
    rfl

/-- The decoder answers a reason and no command. -/
def Refuses (answer : Except IllegalWord Instr) : Prop := ∃ r, answer = .error r

@[simp] theorem refuses_error (r : IllegalWord) : Refuses (.error r) := ⟨r, rfl⟩

@[simp] theorem not_refuses_ok (i : Instr) : ¬ Refuses (.ok i) := fun ⟨_, h⟩ => nomatch h

theorem decodePlain_refuses (w : Word) (i : Instr) :
    Refuses (decodePlain w i) ↔
      ¬ (fieldSel w = 0 ∧ fieldLenA w = 0 ∧ fieldLenB w = 0 ∧ fieldN w = 0) := by
  unfold decodePlain
  split
  next h => simp [h]
  next h => simp [h]

theorem decodePerm_refuses (w : Word) :
    Refuses (decodePerm w) ↔ (fieldLenB w ≠ 0 ∨ fieldN w ≠ 0) ∨
      permTableOfSel (fieldSel w) = none ∨ ¬ lenLegal (fieldLenA w) = true := by
  unfold decodePerm
  split
  next hunused => simp [hunused]
  next hunused =>
    split
    next hsel => simp [hsel]
    next t hsel =>
      split
      next hA => simp [hunused, hsel, hA]
      next hA => simp [hA]

theorem decodeRotl_refuses (w : Word) :
    Refuses (decodeRotl w) ↔
      (fieldSel w ≠ 0 ∨ fieldLenB w ≠ 0) ∨ ¬ lenLegal (fieldLenA w) = true := by
  unfold decodeRotl
  split
  next hunused => simp [hunused]
  next hunused =>
    split
    next hA => simp [hunused, hA]
    next hA => simp [hA]

theorem decodeXor_refuses (w : Word) :
    Refuses (decodeXor w) ↔ (fieldSel w ≠ 0 ∨ fieldN w ≠ 0) ∨
      ¬ lenLegal (fieldLenA w) = true ∨ ¬ lenLegal (fieldLenB w) = true := by
  unfold decodeXor
  split
  next hunused => simp [hunused]
  next hunused =>
    by_cases hA : lenLegal (fieldLenA w) = true
    · by_cases hB : lenLegal (fieldLenB w) = true
      · simp [hunused, hA, hB]
      · simp [hA, hB]
    · simp [hA]

theorem decodeSbox_refuses (w : Word) :
    Refuses (decodeSbox w) ↔ (fieldLenA w ≠ 0 ∨ fieldLenB w ≠ 0 ∨ fieldN w ≠ 0) ∨
      sboxOfSel (fieldSel w) = none := by
  unfold decodeSbox
  split
  next hunused => simp [hunused]
  next hunused =>
    split
    next hsel => simp [hsel]
    next b hsel => simp [hunused, hsel]

/-! ### The decoder by opcode -/

theorem decode_of_rsv {w : Word} (h : fieldRsv w ≠ 0) : decode w = .error .reservedBitsSet := by
  rw [decode, if_pos h]

section ByOpcode

variable {w : Word} (hrsv : fieldRsv w = 0)
include hrsv

/-- The commands of the opcodes 0 to 6 have no fields (30_encoding R109). -/
theorem decode_of_op_le_six (h : fieldOp w ≤ 6) : ∃ i, decode w = decodePlain w i := by
  rw [decode, if_neg (not_not.2 hrsv)]
  interval_cases fieldOp w <;> exact ⟨_, rfl⟩

theorem decode_of_op_perm (h : fieldOp w = 7) : decode w = decodePerm w := by
  simp [decode, hrsv, h]

theorem decode_of_op_rotl (h : fieldOp w = 8) : decode w = decodeRotl w := by
  simp [decode, hrsv, h]

theorem decode_of_op_xor (h : fieldOp w = 9) : decode w = decodeXor w := by
  simp [decode, hrsv, h]

theorem decode_of_op_sbox (h : fieldOp w = 10) : decode w = decodeSbox w := by
  simp [decode, hrsv, h]

theorem decode_of_op_reserved (h : 11 ≤ fieldOp w) : decode w = .error .reservedOpcode := by
  rw [decode, if_neg (not_not.2 hrsv)]
  split
  case h_12 => rfl
  all_goals omega

end ByOpcode

/-- Settles O3: the reserved bits and the opcode select the part of the decoder that refuses. -/
theorem illegalWordsAreTheListedOnes : Obligations.IllegalWordsAreTheListedOnes := by
  intro w op sel la lb n rsv hw hop hsel hla hlb hn
  obtain ⟨rfl, rfl, rfl, rfl, rfl, rfl⟩ := fields_of_toNat hw hop hsel hla hlb hn
  change Refuses (decode w) ↔ _
  by_cases hrsv : fieldRsv w = 0
  case neg => simp [decode_of_rsv hrsv, hrsv]
  obtain h | h | h | h | h | h : fieldOp w ≤ 6 ∨ fieldOp w = 7 ∨ fieldOp w = 8 ∨ fieldOp w = 9 ∨
      fieldOp w = 10 ∨ 11 ≤ fieldOp w := by omega
  · obtain ⟨i, hi⟩ := decode_of_op_le_six hrsv h
    rw [hi, decodePlain_refuses]
    omega
  · rw [decode_of_op_perm hrsv h, decodePerm_refuses, permTableOfSel_eq_none, lenLegal_iff]
    omega
  · rw [decode_of_op_rotl hrsv h, decodeRotl_refuses, lenLegal_iff]
    omega
  · rw [decode_of_op_xor hrsv h, decodeXor_refuses, lenLegal_iff, lenLegal_iff]
    omega
  · rw [decode_of_op_sbox hrsv h, decodeSbox_refuses, sboxOfSel_eq_none]
    omega
  · simp [decode_of_op_reserved hrsv h, h]

end Sys2Proof.Machine

/-! ## Proofs: tables in registers, and what a command's result holds -/

namespace Sys2Proof.Machine

/-! ### The entries of a table in its register -/

/-- Entry `j` of a packed table is base-16 digit `j` of the register (10_state R52). -/
theorem nibble_eq {w : Nat} (r : BitVec w) (j : Nat) : nibble r j = r.toNat / 16 ^ j % 16 := by
  rw [nibble, BitVec.extractLsb'_toNat, Nat.shiftRight_eq_div_pow, Nat.pow_mul]

theorem nibbles_getElem? {w k j : Nat} (r : BitVec w) (h : j < k) :
    (nibbles k r)[j]? = some (nibble r j) := by
  simp [nibbles, h]

theorem nibbles_getD {w k j : Nat} (r : BitVec w) (h : j < k) :
    (nibbles k r).getD j 0 = r.toNat / 16 ^ j % 16 := by
  rw [List.getD_eq_getElem?_getD, nibbles_getElem? r h, Option.getD_some, nibble_eq]

/-- The entries 9 and 10 of P10 stand in P10B (10_state R52). -/
theorem tableP10_getD_high (x : Inputs) (j : Nat) :
    x.tableP10.getD (8 + j) 0 = (nibbles 2 x.p10b).getD j 0 := by
  simp [Inputs.tableP10, List.getElem?_append_right, nibbles_length]

theorem tableP10_getD_low (x : Inputs) {j : Nat} (h : j < 8) :
    x.tableP10.getD j 0 = (nibbles 8 x.p10a).getD j 0 := by
  simp [Inputs.tableP10, List.getElem?_append_left, nibbles_length, h]

/-- Entry (`row`, `col`) of an S-box is a base-4 digit of its register (10_state R57). -/
theorem sboxEntry_toNat (S : BitVec 32) (row col : Nat) :
    (sboxEntry S row col).toNat = S.toNat / 4 ^ (4 * row + col) % 4 := by
  rw [sboxEntry, BitVec.extractLsb'_toNat, Nat.shiftRight_eq_div_pow, Nat.pow_mul]

/-- Settles O12: a packed table lists the digits of its register. -/
theorem tableEntriesAreRegisterFields : Obligations.TableEntriesAreRegisterFields := by
  refine fun x => ⟨tableP10_length x, tableP8_length x, tableIp_length x, tableEp_length x,
    tableP4_length x, fun j hj => ⟨?_, nibbles_getD _ hj, nibbles_getD _ hj, nibbles_getD _ hj⟩,
    fun j hj => ?_, fun j hj => nibbles_getD _ hj,
    fun r _ c _ => ⟨sboxEntry_toNat x.s0 r c, sboxEntry_toNat x.s1 r c⟩⟩
  · rw [tableP10_getD_low x hj, nibbles_getD _ hj]
  · rw [tableP10_getD_high, nibbles_getD _ hj]

/-- Settles O11: the check of each table is the range check, and for IP and P4 the repeat check too. -/
theorem tableChecksAreTheListedConditions : Obligations.TableChecksAreTheListedConditions :=
  fun x => ⟨tableOk_p10 x, tableOk_p8 x, tableOk_ip x, tableOk_ep x, tableOk_p4 x⟩

/-! ### Packing a derived table -/

theorem packNat_lt {T : List Nat} (h : ∀ t ∈ T, t < 16) : packNat T < 16 ^ T.length := by
  induction T with
  | nil => simp [packNat]
  | cons t ts ih =>
    obtain ⟨ht, hts⟩ := List.forall_mem_cons.1 h
    have := ih hts
    rw [packNat, List.length_cons, Nat.pow_succ]
    omega

/-- The digits of a packed number are the entries (10_state R48). -/
theorem packNat_digit {T : List Nat} (h : ∀ t ∈ T, t < 16) (j : Nat) :
    packNat T / 16 ^ j % 16 = T.getD j 0 := by
  induction T generalizing j with
  | nil => simp [packNat]
  | cons t ts ih =>
    obtain ⟨ht, hts⟩ := List.forall_mem_cons.1 h
    rw [packNat]
    cases j with
    | zero => simp only [Nat.pow_zero, List.getD_cons_zero]; omega
    | succ j =>
      have hshift : (t + 16 * packNat ts) / 16 = packNat ts := by omega
      rw [Nat.pow_succ', ← Nat.div_div_eq_div_mul, hshift, ih hts, List.getD_cons_succ]

/-- A packed table of eight entries reads back (45_cipher_engine R223). -/
theorem nibbles_packTable {T : List Nat} (hlen : T.length = 8) (h : ∀ t ∈ T, t < 16) :
    nibbles 8 (packTable T) = T := by
  have hnat : (packTable T).toNat = packNat T := by
    have := hlen ▸ packNat_lt h
    rw [packTable, BitVec.toNat_ofNat, Nat.mod_eq_of_lt (by omega)]
  refine List.ext_getElem ((nibbles_length 8 _).trans hlen.symm) fun j hj hjT => ?_
  have hj8 : j < 8 := hlen ▸ hjT
  rw [← List.getD_eq_getElem _ 0 hj, ← List.getD_eq_getElem _ 0 hjT, nibbles_getD _ hj8, hnat,
    packNat_digit h]

theorem nibbles_packTable_invertTable {x : Inputs} (h : entriesWithin 8 x.tableIp)
    (hn : x.tableIp.Nodup) : nibbles 8 (packTable (invertTable x.tableIp)) = invertTable x.tableIp :=
  nibbles_packTable (invertTable_inverseIs x h hn).1 fun t ht =>
    Nat.lt_of_le_of_lt (invertTable_entriesWithin h hn t ht).2 (by decide)

theorem isPermutation8_invertTable {x : Inputs} (h : entriesWithin 8 x.tableIp)
    (hn : x.tableIp.Nodup) : isPermutation8 (invertTable x.tableIp) = true := by
  have hlen := (invertTable_inverseIs x h hn).1
  have hnodup := (range'_perm_invertTable h hn).nodup_iff.1 List.nodup_range'
  simp [isPermutation8, hlen, (inRange_iff 8 _).2 (invertTable_entriesWithin h hn),
    (noRepeats_iff _).2 hnodup]

/-- What IPINV holds after a command derived the inverse: a permutation table (10_state R48). -/
theorem isPermutation8_of_ipInverse {x : Inputs} {inv : List Nat} (h : ipInverse x = .ok inv) :
    isPermutation8 (nibbles 8 (packTable inv)) = true := by
  have hok : x.tableOk .ip = true := by
    by_contra hbad
    cases h.symm.trans (ipInverse_error hbad)
  obtain ⟨hin, hn⟩ := (tableOk_ip x).1 hok
  obtain rfl := Except.ok.inj ((ipInverse_ok hok).symm.trans h)
  rw [nibbles_packTable_invertTable hin hn, isPermutation8_invertTable hin hn]

/-! ### The inverse table a cipher command writes -/

theorem cipherRounds_inv {x : Inputs} {block ka kb : BitVec 8} {r : BitVec 8 × List Nat}
    (h : cipherRounds x block ka kb = .ok r) : ipInverse x = .ok r.2 := by
  obtain ⟨_, -, h⟩ := bind_eq_ok h
  obtain ⟨_, -, h⟩ := bind_eq_ok h
  obtain ⟨_, -, h⟩ := bind_eq_ok h
  obtain ⟨inv, hinv, h⟩ := bind_eq_ok h
  obtain ⟨_, -, h⟩ := bind_eq_ok h
  obtain rfl := Except.ok.inj h
  exact hinv

theorem encryptResult_inv {x : Inputs} {r : CipherResult} (h : encryptResult x = .ok r) :
    ipInverse x = .ok r.inv := by
  obtain ⟨_, -, h⟩ := bind_eq_ok h
  obtain ⟨_, -, h⟩ := bind_eq_ok h
  obtain ⟨_, hrounds, h⟩ := bind_eq_ok h
  obtain rfl := Except.ok.inj h
  exact cipherRounds_inv hrounds

theorem decryptResult_inv {x : Inputs} {r : CipherResult} (h : decryptResult x = .ok r) :
    ipInverse x = .ok r.inv := by
  obtain ⟨_, -, h⟩ := bind_eq_ok h
  obtain ⟨_, -, h⟩ := bind_eq_ok h
  obtain ⟨_, hrounds, h⟩ := bind_eq_ok h
  obtain rfl := Except.ok.inj h
  exact cipherRounds_inv hrounds

/-! ### What a command writes, and what it does not -/

/-- A command that writes IPINV writes a permutation table (10_state R48). -/
theorem commandResult_ipinv {i : Instr} {x : Inputs} {w : OutputWrites}
    (h : commandResult i x = .ok w) : ∀ r ∈ w.ipinv, isPermutation8 (nibbles 8 r) = true := by
  cases i with
  | encrypt =>
    obtain ⟨c, hc, rfl⟩ := map_eq_ok h
    rintro _ ⟨⟩
    exact isPermutation8_of_ipInverse (encryptResult_inv hc)
  | decrypt =>
    obtain ⟨c, hc, rfl⟩ := map_eq_ok h
    rintro _ ⟨⟩
    exact isPermutation8_of_ipInverse (decryptResult_inv hc)
  | ipinv =>
    obtain ⟨inv, hinv, rfl⟩ := map_eq_ok h
    rintro _ ⟨⟩
    exact isPermutation8_of_ipInverse hinv
  | nop | swap | sbox => obtain rfl := Except.ok.inj h; rintro _ ⟨⟩
  | keysched | round | perm | rotl | xor => obtain ⟨_, -, rfl⟩ := map_eq_ok h; rintro _ ⟨⟩

theorem toNat_setWidth_lt {m : Nat} (v : BitVec m) (n : Nat) : (v.setWidth n).toNat < 2 ^ m :=
  Nat.lt_of_le_of_lt (by rw [BitVec.toNat_setWidth]; exact Nat.mod_le _ _) v.isLt

/-- A unit's answer of `m` bits, zero-extended to RES (30_encoding R110). -/
theorem lt_of_zeroExtended {m : Nat} {r : Except CmdError (BitVec m)} {v : BitVec 10}
    (h : (do let out ← r; return out.setWidth 10) = Except.ok v) : v.toNat < 2 ^ m := by
  obtain ⟨out, -, h⟩ := bind_eq_ok h
  obtain rfl := Except.ok.inj h
  exact toNat_setWidth_lt out 10

/-- A result is no wider than its width says: it is a value of that width, zero-extended
(30_encoding R110). -/
theorem commandResult_lt {i : Instr} {x : Inputs} {w : OutputWrites}
    (h : commandResult i x = .ok w) : ∀ r ∈ w.result, r.2.toNat < 2 ^ r.1 := by
  cases i with
  | round =>
    obtain ⟨b, -, rfl⟩ := map_eq_ok h
    rintro _ ⟨⟩
    exact toNat_setWidth_lt b 10
  | perm table lenA =>
    obtain ⟨r, hr, rfl⟩ := map_eq_ok h
    rintro _ ⟨⟩
    obtain ⟨_, -, hr⟩ := bind_eq_ok hr
    obtain ⟨out, -, hr⟩ := bind_eq_ok hr
    obtain rfl := Except.ok.inj hr
    exact toNat_setWidth_lt out 10
  | rotl | xor =>
    obtain ⟨v, hv, rfl⟩ := map_eq_ok h
    rintro _ ⟨⟩
    exact lt_of_zeroExtended hv
  | swap | sbox =>
    obtain rfl := Except.ok.inj h
    rintro _ ⟨⟩
    exact toNat_setWidth_lt _ 10
  | nop => obtain rfl := Except.ok.inj h; rintro _ ⟨⟩
  | keysched | encrypt | decrypt | ipinv => obtain ⟨_, -, rfl⟩ := map_eq_ok h; rintro _ ⟨⟩

/-- Only the two cipher commands write DOUT, only these and KEYSCHED the subkeys, only these and IPINV
the inverse table (10_state section 4). -/
theorem commandResult_untouched {i : Instr} {x : Inputs} {w : OutputWrites}
    (h : commandResult i x = .ok w) :
    (i ≠ .encrypt → i ≠ .decrypt → w.dout = none) ∧
    (i ≠ .keysched → i ≠ .encrypt → i ≠ .decrypt → w.subkeys = none) ∧
    (i ≠ .ipinv → i ≠ .encrypt → i ≠ .decrypt → w.ipinv = none) := by
  cases i with
  | nop | swap | sbox => obtain rfl := Except.ok.inj h; simp
  | _ => obtain ⟨_, -, rfl⟩ := map_eq_ok h; simp

theorem CmdError.ecode_ne_zero (e : CmdError) : e.ecode ≠ 0 := by
  cases e <;> simp [CmdError.ecode]

/-- A command ends with the writes of its result and the success, or with the error alone
(60_exceptions R267, R268). -/
theorem exec_next {i : Instr} {s t : State} (h : exec i s = .next t) :
    (∃ w, commandResult i s.inputs = .ok w ∧ t = (s.applyWrites w).completeOk) ∨
    (∃ e, commandResult i s.inputs = .error e ∧ t = s.completeError e) :=
  complete_next (exec_eq_complete i s ▸ h)

/-- Settles O28: a command's writes reach the output registers and RESLEN alone, and an error writes
neither. -/
theorem commandsWriteOnlyTheirOutputs : Obligations.CommandsWriteOnlyTheirOutputs := by
  intro i s t h
  obtain ⟨w, hw, rfl⟩ | ⟨e, -, rfl⟩ := exec_next h
  · obtain ⟨hdout, hsubkeys, hipinv⟩ := commandResult_untouched hw
    have hwidth := commandResult_width hw
    refine ⟨rfl, rfl, rfl, rfl, rfl, rfl, rfl, fun _ => rfl, fun hne => absurd rfl hne,
      fun hnone => ?_, fun he hd => ?_, fun hk he hd => ?_, fun hinv he hd => ?_⟩
    · rw [hnone, Option.map_eq_none_iff] at hwidth
      simp [State.applyWrites, hwidth]
    · simp [State.applyWrites, hdout he hd]
    · simp [State.applyWrites, hsubkeys hk he hd]
    · simp [State.applyWrites, hipinv hinv he hd]
  · exact ⟨rfl, rfl, rfl, rfl, rfl, rfl, rfl, fun hz => absurd hz e.ecode_ne_zero,
      fun _ => ⟨rfl, rfl⟩, fun _ => ⟨rfl, rfl⟩, fun _ _ => rfl, fun _ _ _ => ⟨rfl, rfl⟩,
      fun _ _ _ => rfl⟩

end Sys2Proof.Machine

/-! ## Proofs: the cycle of a running command -/

namespace Sys2Proof.Machine

/-! ### Every command and every cycle answers -/

/-- A command ends in a next state that is idle with DONE set (60_exceptions R267, R268). -/
theorem exec_answers (i : Instr) (s : State) :
    ∃ t, exec i s = .next t ∧ t.status.busy = false ∧ t.status.done = true := by
  rw [exec_eq_complete]
  cases commandResult i s.inputs with
  | ok w => exact ⟨_, rfl, rfl, rfl⟩
  | error e => exact ⟨_, rfl, rfl, rfl⟩

theorem completionStep_answers (s : State) : ∃ t, completionStep s = .next t := by
  cases hd : decode s.cmd with
  | ok i =>
    obtain ⟨t, ht, -⟩ := exec_answers i s
    exact ⟨t, (completionStep_of_legal hd).trans ht⟩
  | error r => exact ⟨_, completionStep_of_illegal hd⟩

theorem engineCycle_of_idle (s : State) : engineCycle false s = .next s := rfl

theorem engineCycle_of_count {s : State} (h : 1 < s.count) :
    engineCycle true s = .next s.countDown := by
  rw [engineCycle, if_pos rfl, if_neg (by rw [State.countDown_count]; omega)]

theorem engineCycle_of_last {s : State} (h : s.count ≤ 1) :
    engineCycle true s = completionStep s.countDown := by
  rw [engineCycle, if_pos rfl, if_pos (by rw [State.countDown_count]; omega)]

theorem engineCycle_answers (busy : Bool) (s : State) : ∃ t, engineCycle busy s = .next t := by
  cases busy with
  | false => exact ⟨s, engineCycle_of_idle s⟩
  | true =>
    obtain h | h := Nat.lt_or_ge 1 s.count
    · exact ⟨_, engineCycle_of_count h⟩
    · rw [engineCycle_of_last h]
      exact completionStep_answers _

/-- Settles O40: reset and the engine's part of a cycle always answer. -/
theorem stepStopsOnlyOutsideTheWindow : Obligations.StepStopsOnlyOutsideTheWindow := by
  intro s
  cases he : s.event with
  | reset => exact .inl ⟨_, step_reset he⟩
  | idle => exact .inl (step_idle he ▸ engineCycle_answers _ _)
  | access a =>
    cases ho : windowOffset a.addr with
    | none => exact .inr ⟨step_outside he ho, a, rfl, windowOffset_eq_none.1 ho⟩
    | some o => exact .inl (step_access he ho ▸ engineCycle_answers _ _)

/-! ### What a step is, by the event and the count -/

/-- Settles O39: the engine's part of such a cycle is nothing or the count. -/
theorem stepPerformsTheAccess : Obligations.StepPerformsTheAccess := by
  intro s a o he ho
  refine ⟨fun hb => ?_, fun hb hc => ?_⟩
  · rw [step_access he ho, hb]
    rfl
  · have hcount : (s.afterAccess o a).count = s.count :=
      (busAccess_busy s.takeEvent o a hb).2.2.1
    rw [step_access he ho, hb, engineCycle_of_count (hcount ▸ hc), State.countDown, hcount]
    rfl

/-- Settles O37: in the last cycle the engine's part is the completion step. -/
theorem stepRunsTheAcceptedCommand : Obligations.StepRunsTheAcceptedCommand := by
  intro s i hd hb hc
  have hzero : s.count - 1 = 0 := by omega
  refine ⟨fun he => ?_, fun a o he ho => ?_⟩
  · have hlast : s.takeEvent.countDown = { s with count := 0, inbox := s.inbox.tail, resp := none } := by
      simp only [State.countDown, State.takeEvent, hzero]
    rw [step_idle he, hb, engineCycle_of_last (s := s.takeEvent) hc, hlast]
    exact completionStep_of_legal hd
  · obtain ⟨hcmd, -, hcount, -⟩ := busAccess_busy s.takeEvent o a hb
    replace hcount : (s.afterAccess o a).count = s.count := hcount
    rw [step_access he ho, hb, engineCycle_of_last (hcount ▸ hc), State.countDown, hcount, hzero]
    exact completionStep_of_legal (hcmd ▸ hd)

theorem tableWord_toNat (w : Word) : tableWord 32 w.toNat = w := by
  rw [tableWord, Nat.mod_eq_of_lt w.isLt, BitVec.ofNat_toNat, BitVec.setWidth_eq]

/-- Settles O38: the placed word is the accepted command of a busy engine in its last cycle. -/
theorem placedCommandRunsNext : Obligations.PlacedCommandRunsNext := by
  intro s i hi
  rw [State.withFetchWord, tableWord_toNat]
  exact (stepRunsTheAcceptedCommand (s.withAccepted (encode i)) i (decode_encode hi) rfl le_rfl).1 rfl

/-! ### CTRL, the output registers and the count -/

/-- Settles O49: the host's part sets IRQEN, and the engine's part leaves it. -/
theorem ctrlChangesOnlyByTheHost : Obligations.CtrlChangesOnlyByTheHost := by
  intro s t h
  rw [step_irqen h]
  congr 1
  obtain ⟨v, hw, hirqen⟩ | ⟨hother, hirqen⟩ := hostPart_irqen s
  · rw [hw, hirqen]
  · rw [hirqen]
    split
    next v hw => exact absurd hw (hother v)
    next => rfl

/-- Settles O50: neither the host's part nor an error completion writes an output register. -/
theorem outputsChangeOnlyAtCompletion : Obligations.OutputsChangeOnlyAtCompletion := by
  refine fun s t h => ⟨?reset, ?quiet, ?error, fun _ hb => outputs_of_busy_after h hb⟩
  case error =>
    intro hc he'
    have hr' := resetsNow_of_completesNow hc
    cases step_effect h with
    | reset hr => simp [hr'] at hr
    | quiet reply hr hnc => simp
    | fails reply e hr hc he => simp
    | succeeds reply i w hr hc he hd hw => simp [he] at he'
  all_goals cases step_effect h with
    | reset hr => simp [hr]
    | quiet reply hr hc => simp [hr]
    | fails reply e hr hc he => simp [hr, hc]
    | succeeds reply i w hr hc he hd hw => simp [hr, hc]

theorem HostEffect.count_eq {s u : State} {a : Option Word} {d : Bool} {c : Nat → Bool}
    {x : Option (Reg × Word)} (h : HostEffect s a d c x u) :
    u.count = (a.map fun w => Config.lat (latencyClass w)).getD s.count := by
  cases h <;> simp

@[simp] theorem State.hostPart_count (s : State) :
    s.hostPart.count = (s.acceptsNow.map fun w => Config.lat (latencyClass w)).getD s.count :=
  s.hostPart_effect.count_eq

theorem idle_of_acceptsNow {s : State} {w : Word} (h : s.acceptsNow = some w) :
    s.status.busy = false := by
  by_contra hb
  simp [acceptsNow_of_busy (by simpa using hb)] at h

/-- The count after a step, with the accepted word as an option. -/
theorem step_count {s t : State} (h : step s = .next t) :
    t.count = if s.resetsNow then 0
      else (s.acceptsNow.map fun w => Config.lat (latencyClass w)).getD
        (if s.status.busy then s.count - 1 else s.count) := by
  cases step_effect h with
  | reset hr => simp [hr]
  | quiet reply hr hc =>
    cases ha : s.acceptsNow with
    | none => simp [hr, ha]
    | some w => simp [hr, ha, idle_of_acceptsNow ha]
  | fails reply e hr hc he =>
    have hb := busy_of_completesNow hc
    simp [hr, hb, acceptsNow_of_busy hb]
  | succeeds reply i w hr hc he hd hw =>
    have hb := busy_of_completesNow hc
    simp [hr, hb, acceptsNow_of_busy hb, State.applyWrites]

/-- Settles O51: only an idle engine accepts, so acceptance and countdown exclude each other. -/
theorem countFallsOncePerBusyCycle : Obligations.CountFallsOncePerBusyCycle := by
  intro s t h
  rw [step_count h]
  cases s.acceptsNow <;> rfl

end Sys2Proof.Machine

/-! ## Proofs: the invariant -/

namespace Sys2Proof.Machine

/-- Settles O58: the reset state is idle with every field 0. -/
theorem resetMeetsTheInvariant : Obligations.ResetMeetsTheInvariant :=
  ⟨by decide, by decide, by decide, by decide, by decide, by decide, by decide, .inl rfl⟩

/-! ### The fields of STATUS -/

/-- After a step the count runs exactly while busy: acceptance sets it to a latency, and the last cycle
of a command clears BUSY. -/
theorem step_busy_iff_count {s t : State} (hs : s.status.busy = true ↔ 0 < s.count)
    (h : step s = .next t) : t.status.busy = true ↔ 0 < t.count := by
  rw [busyChangesOnlyByRule s t h, step_count h]
  cases hr : s.resetsNow with
  | true => simp
  | false =>
    cases ha : s.acceptsNow with
    | some w => simp [Config.lat]
    | none =>
      cases hb : s.status.busy with
      | true => simp [State.completesNow, hb, hr]
      | false => simp_all [State.completesNow]

/-- After a step DONE is off while busy: a completion sets it as it clears BUSY, acceptance clears it. -/
theorem step_done_of_busy {s t : State} (hs : s.status.busy = true → s.status.done = false)
    (h : step s = .next t) (hb : t.status.busy = true) : t.status.done = false := by
  rw [busyChangesOnlyByRule s t h] at hb
  rw [doneChangesOnlyByRule s t h]
  cases hr : s.resetsNow with
  | true => simp
  | false =>
    cases ha : s.acceptsNow with
    | some w => simp [completesNow_of_acceptsNow (s := s) (by simp [ha])]
    | none =>
      cases hc : s.completesNow with
      | true => simp [hr, ha, hc] at hb
      | false => simp_all

/-- The codes of an error exist, and only a ConfigurationError names a table (10_state R40, R41). -/
theorem CmdError.codes_legal (e : CmdError) :
    e.ecode.toNat ≤ 4 ∧ e.errtab.toNat ≤ 6 ∧ (e.ecode = 1 ↔ e.errtab ≠ 0) := by
  cases e with
  | configuration table => cases table <;> decide
  | lengthMismatch => decide
  | domain => decide
  | illegalCommand => decide

/-- The codes of a status exist and agree, in the form the invariant gives it. -/
def Status.codesLegal (st : Status) : Prop :=
  st.ecode.toNat ≤ 4 ∧ st.errtab.toNat ≤ 6 ∧ (st.ecode = 1 ↔ st.errtab ≠ 0)

theorem step_codesLegal {s t : State} (hs : s.status.codesLegal) (h : step s = .next t) :
    t.status.codesLegal := by
  unfold Status.codesLegal at hs ⊢
  cases step_effect h with
  | reset hr => simp [Status.reset]
  | quiet reply hr hc => simpa using hs
  | fails reply e hr hc he => simpa using e.codes_legal
  | succeeds reply i w hr hc he hd hw => simp

/-! ### The output registers -/

/-- RES fits RESLEN, and RESLEN fits RES (10_state R42, R51). -/
def State.resFits (s : State) : Prop :=
  s.status.reslen.toNat ≤ 10 ∧ s.outputs.res.toNat < 2 ^ s.status.reslen.toNat

/-- The writes of a decoded command keep RES within RESLEN. -/
theorem resFits_applyWrites {s : State} {i : Instr} {x : Inputs} {w : OutputWrites}
    (hi : i.wellFormed = true) (hw : commandResult i x = .ok w) (hs : s.resFits) :
    (s.applyWrites w).resFits := by
  unfold State.resFits at hs ⊢
  cases hr : w.result with
  | none => simpa [State.applyWrites, hr] using hs
  | some r =>
    have hwidth : resultWidth i = some r.1 := by rw [← commandResult_width hw, hr]; rfl
    have hle := resultWidth_le hi hwidth
    have hlt := commandResult_lt hw r hr
    simp only [State.applyWrites, hr, Option.map_some, Option.getD_some, BitVec.toNat_ofNat]
    rw [Nat.mod_eq_of_lt (by omega)]
    exact ⟨hle, hlt⟩

theorem step_resFits {s t : State} (hs : s.resFits) (h : step s = .next t) : t.resFits := by
  cases step_effect h with
  | reset hr => simp [State.resFits, Status.reset, Outputs.reset]
  | quiet reply hr hc => simpa [State.resFits] using hs
  | fails reply e hr hc he => simpa [State.resFits] using hs
  | succeeds reply i w hr hc he hd hw =>
    exact resFits_applyWrites (s := ({ s.hostPart with resp := reply } : State).countDown)
      (decode_wellFormed hd) hw (by simpa [State.resFits] using hs)

/-- IPINV holds its reset value or a permutation table (10_state R48). -/
def Outputs.ipinvLegal (o : Outputs) : Prop :=
  o.ipinv = 0 ∨ isPermutation8 (nibbles 8 o.ipinv) = true

theorem step_ipinvLegal {s t : State} (hs : s.outputs.ipinvLegal) (h : step s = .next t) :
    t.outputs.ipinvLegal := by
  cases step_effect h with
  | reset hr => exact .inl rfl
  | quiet reply hr hc => simpa using hs
  | fails reply e hr hc he => simpa using hs
  | succeeds reply i w hr hc he hd hw =>
    cases hinv : w.ipinv with
    | none => simpa [State.applyWrites, Outputs.ipinvLegal, hinv] using hs
    | some r =>
      simpa [State.applyWrites, Outputs.ipinvLegal, hinv] using .inr (commandResult_ipinv hw r hinv)

/-- Settles O59: each part of the invariant is kept by itself. -/
theorem stepKeepsTheInvariant : Obligations.StepKeepsTheInvariant := by
  rintro s t ⟨hcount, hdone, hecode, herrtab, hcodes, hreslen, hres, hipinv⟩ h
  obtain ⟨hecode', herrtab', hcodes'⟩ := step_codesLegal ⟨hecode, herrtab, hcodes⟩ h
  obtain ⟨hreslen', hres'⟩ := step_resFits ⟨hreslen, hres⟩ h
  exact ⟨step_busy_iff_count hcount h, step_done_of_busy hdone h, hecode', herrtab', hcodes',
    hreslen', hres', step_ipinvLegal hipinv h⟩

end Sys2Proof.Machine

/-! ## Proofs: from acceptance to completion -/

namespace Sys2Proof.Machine

/-! ### The latency -/

/-- Left alone by the host, a busy engine stays busy for as many cycles as are fewer than its count. -/
theorem run_while_busy (k : Nat) {s : State} (hb : s.status.busy = true) (hi : s.inbox = [])
    (hk : k < s.count) :
    ∃ t, Host.Core.run Sys2Proof.core k s = .next t ∧ t.status.busy = true ∧
      t.outputs = s.outputs ∧ t.count = s.count - k := by
  induction k generalizing s with
  | zero => exact ⟨s, run_zero s, hb, rfl, rfl⟩
  | succ k ih =>
    have hstep : step s = .next s.takeEvent.countDown := by
      rw [step_idle (event_of_inbox_nil hi), hb]
      exact engineCycle_of_count (s := s.takeEvent) (by simp; omega)
    obtain ⟨t, hrun, hbusy, hout, hcount⟩ := ih (s := s.takeEvent.countDown) hb (by simp [hi])
      (by simp; omega)
    refine ⟨t, (run_succ_next k hstep).trans hrun, hbusy, hout, hcount.trans ?_⟩
    simp [Nat.sub_sub, Nat.add_comm]

theorem latencyClass_of_legal {w : Word} {i : Instr} (h : decode w = .ok i) :
    latencyClass w = some i.opcode := by
  simp only [latencyClass, h]

/-- Settles O55: the accepted word waits out its latency, and then the completion step is its command. -/
theorem commandCompletesAfterItsLatency : Obligations.CommandCompletesAfterItsLatency := by
  intro s w i hb hi hd
  have hlat := latencyClass_of_legal hd
  refine ⟨Nat.le_add_left 1 _, fun k hk => ?_, ?_⟩
  · have hstep := step_accepts hb (event_of_inbox_cons hi)
    obtain ⟨t, hrun, hbusy, hout, hcount⟩ := run_while_busy k
      (s := { s.takeEvent.accept w with resp := some BusReply.written }) rfl (by simp [hi])
      (by simpa [hlat] using hk)
    exact ⟨t, (run_succ_next k hstep).trans hrun, hbusy, hout, by simpa [hlat] using hcount⟩
  · have hrun := run_accepted hb hi
    rw [hlat] at hrun
    obtain ⟨t, ht, hbusy, hdone⟩ := exec_answers i
      { s.accept w with count := 0, inbox := [], resp := none }
    have hcompletes := completionStep_of_legal
      (s := { s.accept w with count := 0, inbox := [], resp := none }) hd
    exact ⟨t, hrun.trans (hcompletes.trans ht), hbusy, hdone, ht⟩

/-! ### A running command under the host's accesses -/

/-- The host makes no access outside the window and does not reset (20_memory R70). -/
def HostEvent.harmless (e : HostEvent) : Prop :=
  e ≠ .reset ∧ ∀ a : BusAccess, e = .access a → (windowOffset a.addr).isSome = true

theorem event_harmless {s : State} (h : ∀ e ∈ s.inbox, e.harmless) : s.event.harmless := by
  unfold State.event
  cases hi : s.inbox with
  | nil => exact ⟨nofun, nofun⟩
  | cons e es => exact h e (by simp [hi])

/-- A harmless event is no reset, and its step answers. -/
theorem step_of_harmless {s : State} (h : s.event.harmless) :
    s.resetsNow = false ∧ ∃ t, step s = .next t := by
  obtain ⟨hreset, hwindow⟩ := h
  refine ⟨by simp [State.resetsNow, hreset], ?_⟩
  obtain hnext | ⟨-, a, ha, hout⟩ := stepStopsOnlyOutsideTheWindow s
  · exact hnext
  · have := hwindow a ha
    simp [windowOffset_eq_none.2 hout] at this

/-- Two states agree on what a completion writes: the output registers, ECODE, ERRTAB and RESLEN. -/
structure SameResults (s t : State) : Prop where
  outputs : t.outputs = s.outputs
  ecode : t.status.ecode = s.status.ecode
  errtab : t.status.errtab = s.status.errtab
  reslen : t.status.reslen = s.status.reslen

theorem SameResults.trans {s t u : State} (h : SameResults s t) (h' : SameResults t u) :
    SameResults s u where
  outputs := h'.outputs.trans h.outputs
  ecode := h'.ecode.trans h.ecode
  errtab := h'.errtab.trans h.errtab
  reslen := h'.reslen.trans h.reslen

theorem SameResults.completeError {s t : State} (h : SameResults s t) (e : CmdError) :
    SameResults (s.completeError e) (t.completeError e) :=
  ⟨h.outputs, rfl, rfl, h.reslen⟩

theorem SameResults.succeed {s t : State} (h : SameResults s t) (w : OutputWrites) :
    SameResults (s.applyWrites w).completeOk (t.applyWrites w).completeOk where
  outputs := by simp [State.applyWrites, h.outputs]
  ecode := rfl
  errtab := rfl
  reslen := by simp [h.reslen]

/-- A command's results depend on the inputs and on the registers it leaves alone (10_state R59). -/
theorem exec_sameResults {i : Instr} {s t u : State} (h : SameResults s t)
    (hin : t.inputs = s.inputs) (hu : exec i t = .next u) :
    ∃ v, exec i s = .next v ∧ SameResults v u := by
  rw [exec_eq_complete, hin] at hu
  rw [exec_eq_complete]
  obtain ⟨w, hw, rfl⟩ | ⟨e, he, rfl⟩ := complete_next hu
  · exact ⟨_, by rw [hw, complete_ok], h.succeed w⟩
  · exact ⟨_, by rw [he, complete_error], h.completeError e⟩

/-- No access writes a result; what the engine's part does with the count and the reply is no matter. -/
theorem hostPart_sameResults (s : State) (count : Nat) (reply : Option BusReply) :
    SameResults s { s.hostPart with count := count, resp := reply } where
  outputs := s.hostPart_outputs
  ecode := s.hostPart_ecode
  errtab := s.hostPart_errtab
  reslen := s.hostPart_reslen

theorem HostEffect.inbox {s u : State} {a : Option Word} {d : Bool} {c : Nat → Bool}
    {x : Option (Reg × Word)} (h : HostEffect s a d c x u) : u.inbox = s.inbox.tail := by
  cases h <;> simp

section Running

variable {s t : State} (hb : s.status.busy = true) (hr : s.resetsNow = false)
  (h : step s = .next t)
include hb hr h

/-- Before its last cycle a running command keeps its word, its inputs and the registers as they are. -/
theorem step_while_running (hc : 1 < s.count) :
    SameResults s t ∧ t.inputs = s.inputs ∧ t.cmd = s.cmd ∧ t.status.busy = true ∧
      t.count = s.count - 1 ∧ t.inbox = s.inbox.tail := by
  have hnot : s.completesNow = false := by simp [State.completesNow, hc]
  cases step_effect h with
  | reset hr' => simp [hr] at hr'
  | quiet reply _ _ =>
    exact ⟨hostPart_sameResults s _ reply, by simp [inputWriteNow_of_busy hb],
      by simp [acceptsNow_of_busy hb], by simp [hb], by simp [hb, acceptsNow_of_busy hb],
      s.hostPart_effect.inbox⟩
  | fails _ _ _ hc' _ => simp [hnot] at hc'
  | succeeds _ _ _ _ hc' _ _ _ => simp [hnot] at hc'

/-- In the last cycle the step has the results of the command on the state before it. -/
theorem step_last_running {i : Instr} (hc : s.count ≤ 1) (hd : decode s.cmd = .ok i) :
    t.inputs = s.inputs ∧ t.cmd = s.cmd ∧ t.status.busy = false ∧ t.status.done = true ∧
      ∃ u, exec i s = .next u ∧ SameResults u t := by
  have hcompletes : s.completesNow = true := by simp [State.completesNow, hb, hc, hr]
  cases step_effect h with
  | reset hr' => simp [hr] at hr'
  | quiet _ _ hc' => simp [hcompletes] at hc'
  | fails reply e _ _ he =>
    have he' : firstError i s.inputs = some e := by simpa [State.pendingError, hd] using he
    exact ⟨by simp [inputWriteNow_of_busy hb], by simp [acceptsNow_of_busy hb], rfl, rfl, _,
      exec_of_firstError_some he', (hostPart_sameResults s _ reply).completeError e⟩
  | succeeds reply j w _ _ _ hj hw =>
    obtain rfl := Except.ok.inj (hd.symm.trans hj)
    exact ⟨by simp [inputWriteNow_of_busy hb], by simp [acceptsNow_of_busy hb], rfl, rfl, _,
      by rw [exec_eq_complete, hw, complete_ok],
      (hostPart_sameResults s _ reply).succeed w⟩

end Running

/-- Whatever harmless events come, a busy engine counts down to the end of its command. -/
theorem run_running (n : Nat) {s : State} {i : Instr} (hb : s.status.busy = true)
    (hc : s.count = n + 1) (hd : decode s.cmd = .ok i) (hin : ∀ e ∈ s.inbox, e.harmless) :
    ∃ t u, Host.Core.run Sys2Proof.core (n + 1) s = .next t ∧ exec i s = .next u ∧
      SameResults u t ∧ t.inputs = s.inputs ∧ t.cmd = s.cmd ∧ t.status.busy = false ∧
      t.status.done = true := by
  obtain ⟨hr, t, ht⟩ := step_of_harmless (event_harmless hin)
  induction n generalizing s t with
  | zero =>
    obtain ⟨hinputs, hcmd, hbusy, hdone, u, hu, hsame⟩ := step_last_running hb hr ht hc.le hd
    exact ⟨t, u, (run_one s).trans ht, hu, hsame, hinputs, hcmd, hbusy, hdone⟩
  | succ n ih =>
    obtain ⟨hsame, hinputs, hcmd, hbusy, hcount, hinbox⟩ :=
      step_while_running hb hr ht (by omega)
    have hin' : ∀ e ∈ t.inbox, e.harmless := fun e he => hin e (List.mem_of_mem_tail (hinbox ▸ he))
    obtain ⟨hr', t', ht'⟩ := step_of_harmless (event_harmless hin')
    obtain ⟨v, u, hrun, hu, hend, hinputs', hcmd', hbusy', hdone'⟩ :=
      ih hbusy (by omega) (hcmd ▸ hd) hin' hr' t' ht'
    obtain ⟨u', hu', hsame'⟩ := exec_sameResults hsame hinputs hu
    exact ⟨v, u', (run_succ_next _ ht).trans hrun, hu', hsame'.trans hend, hinputs'.trans hinputs,
      hcmd'.trans hcmd, hbusy', hdone'⟩

/-- Settles O57: no harmless event reaches the word, the inputs or the results of a running command. -/
theorem runningCommandIgnoresTheHost : Obligations.RunningCommandIgnoresTheHost := by
  intro s i hb hcount hd hin
  obtain ⟨n, hn⟩ : ∃ n, s.count = n + 1 := ⟨s.count - 1, by omega⟩
  obtain ⟨t, u, hrun, hu, hsame, hinputs, hcmd, hbusy, hdone⟩ := run_running n hb hn hd hin
  exact ⟨t, u, hn ▸ hrun, hu, hsame.outputs, hinputs, hcmd, hbusy, hdone, hsame.ecode, hsame.errtab,
    hsame.reslen⟩

end Sys2Proof.Machine

/-! ## Proofs: what a written register reads as -/

namespace Sys2Proof.Machine

/-! ### The fields of STATUS in its word -/

/-- Bits [31:4] of STATUS: the codes, RESLEN and the reserved bits (10_state R35). -/
def Status.upperWord (st : Status) : BitVec 28 :=
  0#16 ++ st.reslen ++ st.errtab ++ 0#1 ++ st.ecode

/-- STATUS by its bits: the flags BUSY, DONE, ERR and BVIOL, then the fields above (10_state R35). -/
theorem statusWord_getLsbD (st : Status) :
    st.word.getLsbD 0 = st.busy ∧ st.word.getLsbD 1 = st.done ∧ st.word.getLsbD 2 = st.err ∧
      st.word.getLsbD 3 = st.bviol ∧ ∀ i, st.word.getLsbD (i + 4) = st.upperWord.getLsbD i := by
  simp only [Status.word, BitVec.getLsbD_append]
  refine ⟨by simp, by simp, by simp, by simp, fun i => ?_⟩
  rw [if_neg (by omega), if_neg (by omega), if_neg (by omega), if_neg (by omega), Status.upperWord]
  simp only [BitVec.getLsbD_append]
  rfl

/-- Settles O36: each field stands where the word puts it. -/
theorem statusWordLayout : Obligations.StatusWordLayout := by
  intro s
  obtain ⟨hbusy, hdone, herr, hbviol, hupper⟩ := statusWord_getLsbD s.status
  refine ⟨s.status.word, rfl, hbusy, hdone, herr, hbviol, ?ecode, ?bit7, ?errtab, ?reslen, ?high⟩
  case bit7 =>
    rw [hupper 3, Status.upperWord, BitVec.getLsbD_append, if_neg (by decide), BitVec.getLsbD_append,
      if_pos (by decide), BitVec.getLsbD_zero]
  all_goals
    simp only [Status.word, BitVec.extractLsb'_append_eq_of_le, Nat.reduceLeDiff, Nat.reduceSub]
  case high => simp
  all_goals exact BitVec.extractLsb'_append_eq_right

/-! ### Input registers -/

theorem setWidth_setWidth_eq_and (v : Word) (w : Nat) :
    (v.setWidth w).setWidth 32 = v &&& (BitVec.allOnes w).setWidth 32 := by
  ext i hi
  simp [BitVec.getElem_setWidth, hi, Bool.and_comm]

/-- An input register takes the bits of the value that exist (10_state R64). -/
theorem readReg_writeInput_same (s : State) {r : Reg} (hr : r.access = .input) (v : Word) :
    (s.writeInput r v).readReg r = v &&& r.mask := by
  cases r with
  | key | din | opa | opb | p10b | p4 => exact setWidth_setWidth_eq_and v _
  | p10a | p8 | ip | ep | s0 | s1 => exact (BitVec.and_allOnes).symm
  | id | ctrl | cmd | status | dout | k1 | k2 | ipinv | res => cases hr

theorem readReg_writeInput_other (s : State) {r q : Reg} (hq : q ≠ r) (v : Word) :
    (s.writeInput r v).readReg q = s.readReg q := by
  cases r with
  | id | ctrl | cmd | status | dout | k1 | k2 | ipinv | res => rfl
  | _ => cases q <;> simp [State.readReg, Inputs.write] at hq ⊢

theorem writeReg_input_of_idle {s : State} {r : Reg} (hb : s.status.busy = false)
    (h : r.access = .input) (v : Word) : writeReg s r v = (BusReply.written, s.writeInput r v) := by
  simp [writeReg, h, hb]

/-- Settles O32: the write replaces its own field. -/
theorem inputWritesReadBack : Obligations.InputWritesReadBack := fun s r addr v hb hr =>
  ⟨s.writeInput r v, (busAccess_write_offset s r addr v).trans (writeReg_input_of_idle hb hr v),
    readReg_writeInput_same s hr v, fun _ hq => readReg_writeInput_other s hq v, rfl, rfl, rfl⟩

/-! ### CTRL and STATUS -/

/-- IRQEN is bit [0] of CTRL (10_state R33). -/
theorem readReg_writeCtrl (s : State) (v : Word) : (s.writeCtrl v).readReg .ctrl = v &&& 1 := by
  ext i hi
  cases i with
  | zero => simp [State.readReg]
  | succ i => simp [State.readReg]

/-- No bit above [3] of STATUS can be cleared (10_state R35). -/
theorem clearMask_getLsbD (i : Nat) : (0xE : Word).getLsbD (i + 4) = false := by
  rw [show (0xE : Word) = (0xE#4).setWidth 32 from rfl, BitVec.getLsbD_setWidth,
    BitVec.getLsbD_of_ge _ _ (by omega), Bool.and_false]

/-- A write to STATUS takes the three flags whose bits are 1, and no other bit. -/
theorem readReg_writeStatus (s : State) (v : Word) :
    (s.writeStatus v).readReg .status = s.readReg .status &&& ~~~ (v &&& 0xE) := by
  obtain ⟨hbusy, hdone, herr, hbviol, hupper⟩ := statusWord_getLsbD s.status
  obtain ⟨hbusy', hdone', herr', hbviol', hupper'⟩ := statusWord_getLsbD (s.status.clear v)
  apply BitVec.eq_of_getLsbD_eq
  intro i hi
  change (s.status.clear v).word.getLsbD i = _
  simp only [State.readReg, BitVec.getLsbD_and, BitVec.getLsbD_not, hi, decide_true, Bool.true_and]
  match i with
  | 0 => rw [hbusy, hbusy']; simp
  | 1 => rw [hdone, hdone']; simp
  | 2 => rw [herr, herr']; simp
  | 3 => rw [hbviol, hbviol']; simp
  | i + 4 =>
    rw [hupper, hupper', clearMask_getLsbD]
    simp [Status.upperWord]

/-- Settles O33: neither write looks at BUSY. -/
theorem controlWritesTakeEffectAlways : Obligations.ControlWritesTakeEffectAlways := by
  intro s addr v
  refine ⟨⟨s.writeCtrl v, busAccess_write_offset s .ctrl addr v, readReg_writeCtrl s v, fun q hq => ?_⟩,
    ⟨s.writeStatus v, busAccess_write_offset s .status addr v, readReg_writeStatus s v,
      fun q hq => ?_⟩⟩
  · cases q with
    | ctrl => exact absurd rfl hq
    | _ => rfl
  · cases q with
    | status => exact absurd rfl hq
    | _ => rfl

end Sys2Proof.Machine

/-! ## Proofs: the units on strings -/

namespace Sys2Proof.Machine

/-! ### Strings of parts -/

/-- The string of two values side by side is their strings, one after the other. -/
theorem stringOf_append {m n : Nat} (x : BitVec m) (y : BitVec n) :
    stringOf (x ++ y) = stringOf x ++ stringOf y := by
  refine List.ext_getElem (by simp [stringOf_length]) fun i hi _ => ?_
  rw [stringOf_length] at hi
  by_cases him : i < m
  · have hplace : m + n - 1 - i - n = m - 1 - i := by omega
    have hhigh : ¬ m + n - 1 - i < n := by omega
    simp [stringOf, BitVec.getLsbD_append, him, hhigh, hplace]
  · have hplace : m + n - 1 - i = n - 1 - (i - m) := by omega
    have hlow : n - 1 - (i - m) < n := by omega
    simp [stringOf, BitVec.getLsbD_append, List.getElem_append, him, hlow, hplace]

theorem stringOf_extractLsb'_high {m n : Nat} (v : BitVec (m + n)) :
    stringOf (v.extractLsb' n m) = (stringOf v).take m := by
  conv_rhs => rw [← BitVec.extractLsb'_append_extractLsb' (x := v), stringOf_append]
  exact (List.take_left' (stringOf_length _)).symm

theorem stringOf_extractLsb'_low {m n : Nat} (v : BitVec (m + n)) :
    stringOf (v.extractLsb' 0 n) = (stringOf v).drop m := by
  conv_rhs => rw [← BitVec.extractLsb'_append_extractLsb' (x := v), stringOf_append]
  exact (List.drop_left' (stringOf_length _)).symm

theorem stringOf_highHalf (b : BitVec 8) : stringOf (highHalf b) = (stringOf b).take 4 :=
  stringOf_extractLsb'_high (m := 4) (n := 4) b

theorem stringOf_lowHalf (b : BitVec 8) : stringOf (lowHalf b) = (stringOf b).drop 4 :=
  stringOf_extractLsb'_low (m := 4) (n := 4) b

/-- The swap is `x[4:] + x[:4]` (45_cipher_engine R217). -/
theorem stringOf_swapHalves (b : BitVec 8) : stringOf (swapHalves b) = strSwap (stringOf b) := by
  rw [swapHalves, stringOf_append, stringOf_highHalf, stringOf_lowHalf, strSwap]

/-- A table of known length, gathered and taken at its width. -/
theorem stringOf_gather_setWidth {n m : Nat} (v : BitVec n) {T : List Nat} (h : entriesWithin n T)
    (hlen : T.length = m) : stringOf ((gather v T).setWidth m) = strApply (stringOf v) T :=
  (stringOf_setWidth_of_eq hlen _).trans (stringOf_gather v h)

/-! ### The key schedule -/

/-- The schedule answers the subkeys of the schedule over strings (43_key_scheduler R185). -/
theorem keySchedule_string (key : BitVec 10) {P10 P8 : List Nat} (h10 : entriesWithin 10 P10)
    (hlen10 : P10.length = 10) (h8 : entriesWithin 10 P8) (hlen8 : P8.length = 8) :
    ∃ k1 k2, keySchedule key P10 P8 = .ok (k1, k2) ∧
      (stringOf k1, stringOf k2) = strKeySchedule (stringOf key) P10 P8 := by
  have hp10 := stringOf_gather_setWidth key h10 hlen10
  generalize hp : (gather key P10).setWidth 10 = p10 at hp10
  obtain ⟨left1, hleft1, sleft1⟩ :=
    (rotationMovesLeadingCharacters 5 1 (p10.extractLsb' 5 5)).1 (by decide)
  obtain ⟨right1, hright1, sright1⟩ :=
    (rotationMovesLeadingCharacters 5 1 (p10.extractLsb' 0 5)).1 (by decide)
  obtain ⟨left2, hleft2, sleft2⟩ := (rotationMovesLeadingCharacters 5 2 left1).1 (by decide)
  obtain ⟨right2, hright2, sright2⟩ := (rotationMovesLeadingCharacters 5 2 right1).1 (by decide)
  rw [stringOf_extractLsb'_high (m := 5) (n := 5) p10] at sleft1
  rw [stringOf_extractLsb'_low (m := 5) (n := 5) p10] at sright1
  refine ⟨(gather (left1 ++ right1) P8).setWidth 8, (gather (left2 ++ right2) P8).setWidth 8, ?_, ?_⟩
  · simp only [keySchedule, permute_ok _ _ h10, permute_ok _ _ h8, bind, Except.bind, hp, hleft1,
      hright1, hleft2, hright2]
    rfl
  · rw [stringOf_gather_setWidth _ h8 hlen8, stringOf_gather_setWidth _ h8 hlen8, stringOf_append,
      stringOf_append, sleft2, sright2, sleft1, sright1, hp10, strKeySchedule]

/-! ### The S-boxes -/

theorem sboxRow_lt (v : BitVec 4) : sboxRow v < 4 := by
  have := (v.getLsbD 3).toNat_lt
  have := (v.getLsbD 0).toNat_lt
  unfold sboxRow
  omega

theorem sboxCol_lt (v : BitVec 4) : sboxCol v < 4 := by
  have := (v.getLsbD 2).toNat_lt
  have := (v.getLsbD 1).toNat_lt
  unfold sboxCol
  omega

theorem gridOf_getD (S : BitVec 32) {r c : Nat} (hr : r < 4) (hc : c < 4) :
    ((gridOf S).getD r []).getD c [] = stringOf (sboxEntry S r c) := by
  simp [gridOf, hr, hc]

/-- The outer characters name the row, the inner ones the column (42_sbox R170). -/
theorem stringOf_sboxLookup (v : BitVec 4) (S : BitVec 32) :
    stringOf (sboxLookup v S) = strLookup (stringOf v) (gridOf S) := by
  have hchar (i : Nat) (hi : i < 4) := stringOf_getD v hi false
  rw [strLookup, hchar 0 (by decide), hchar 1 (by decide), hchar 2 (by decide), hchar 3 (by decide)]
  exact (gridOf_getD S (sboxRow_lt v) (sboxCol_lt v)).symm

/-! ### The Feistel round -/

section Round

variable {t : RoundTables} (hep : entriesWithin 4 t.ep) (hlenEp : t.ep.length = 8)
  (hp4 : entriesWithin 4 t.p4) (hlenP4 : t.p4.length = 4)
include hep hlenEp hp4 hlenP4

/-- The nine steps, one by one (44_feistel_round R200). -/
theorem feistelRound_string (b sk : BitVec 8) :
    ∃ c, feistelRound b sk t = .ok c ∧
      stringOf c = strRound (stringOf b) (stringOf sk) t.ep t.p4 (gridOf t.s0) (gridOf t.s1) := by
  have hmixed : stringOf ((gather (lowHalf b) t.ep).setWidth 8 ^^^ sk) =
      strXor (strApply (stringOf (lowHalf b)) t.ep) (stringOf sk) := by
    rw [stringOf_xor, stringOf_gather_setWidth _ hep hlenEp]
  generalize hm : (gather (lowHalf b) t.ep).setWidth 8 ^^^ sk = mixed at hmixed
  have hcombined : stringOf (sboxLookup (highHalf mixed) t.s0 ++ sboxLookup (lowHalf mixed) t.s1) =
      strLookup ((stringOf mixed).take 4) (gridOf t.s0) ++
        strLookup ((stringOf mixed).drop 4) (gridOf t.s1) := by
    rw [stringOf_append, stringOf_sboxLookup, stringOf_sboxLookup, stringOf_highHalf, stringOf_lowHalf]
  generalize hc : sboxLookup (highHalf mixed) t.s0 ++ sboxLookup (lowHalf mixed) t.s1 = combined
    at hcombined
  have hf : roundF (lowHalf b) sk t = .ok ((gather combined t.p4).setWidth 4) := by
    simp only [roundF, permute_ok _ _ hep, xorBits_same, bind, Except.bind, hm, hc, permute_ok _ _ hp4]
    rfl
  refine ⟨((gather combined t.p4).setWidth 4 ^^^ highHalf b) ++ lowHalf b, ?_, ?_⟩
  · rw [feistelRound_eq_map, hf]
    rfl
  · rw [stringOf_append, stringOf_xor, stringOf_gather_setWidth _ hp4 hlenP4, hcombined, hmixed,
      stringOf_highHalf, stringOf_lowHalf, strRound]

end Round

/-- The round with the tables of the registers. -/
theorem feistelRound_roundTables_string {x : Inputs} (hep : entriesWithin 4 x.tableEp)
    (hp4 : entriesWithin 4 x.tableP4) (b sk : BitVec 8) :
    ∃ c, feistelRound b sk x.roundTables = .ok c ∧ stringOf c =
      strRound (stringOf b) (stringOf sk) x.tableEp x.tableP4 (gridOf x.s0) (gridOf x.s1) :=
  feistelRound_string (t := x.roundTables) hep (tableEp_length x) hp4 (tableP4_length x) b sk

/-- The stages 2 to 6 are the pipeline over strings (45_cipher_engine R219). -/
theorem cipherRounds_string {x : Inputs} (h : x.tablesLegal) (block ka kb : BitVec 8) :
    ∃ c, cipherRounds x block ka kb = .ok (c, invertTable x.tableIp) ∧
      stringOf c = strCipher x (invertTable x.tableIp) (stringOf block) (stringOf ka) (stringOf kb) := by
  obtain ⟨-, -, ⟨hip, hn⟩, hep, hp4, -⟩ := h
  obtain ⟨r1, hr1, sr1⟩ := feistelRound_roundTables_string hep hp4 (x.permuteIp block) ka
  obtain ⟨r2, hr2, sr2⟩ := feistelRound_roundTables_string hep hp4 (swapHalves r1) kb
  refine ⟨x.permuteIpInv r2, ?_, ?_⟩
  · rw [cipherRounds_eq hip hn]
    simp only [hr1, hr2, bind, Except.bind]
    rfl
  · rw [stringOf_permuteIpInv hip hn, sr2, stringOf_swapHalves, sr1, stringOf_permuteIp hip, strCipher]

end Sys2Proof.Machine

/-! ## Proofs: where each command completes and with what -/

namespace Sys2Proof.Machine

/-! ### The two completions in the terms of claims -/

theorem exec_of_ok {i : Instr} {s : State} {w : OutputWrites} (h : commandResult i s.inputs = .ok w) :
    exec i s = .next (s.succeeded (s.applyWrites w).outputs (s.applyWrites w).status.reslen) := by
  rw [exec_eq_complete, h]
  rfl

theorem exec_of_error {i : Instr} {s : State} {e : CmdError} (h : firstError i s.inputs = some e) :
    exec i s = .next (s.failed e.ecode e.errtab) := by
  rw [exec_of_firstError_some h, completeError_eq_failed]

/-! ### Commands without a check -/

/-- Settles O13: the result of NOP writes nothing. -/
theorem nopOnlyCompletes : Obligations.NopOnlyCompletes := fun _ => exec_of_ok (i := .nop) rfl

/-- Settles O14: the register form of the swap is the swap of strings. -/
theorem swapExchangesHalves : Obligations.SwapExchangesHalves := fun s =>
  ⟨swapHalves (s.inputs.operandA 8), exec_of_ok (i := .swap) rfl, stringOf_swapHalves _⟩

theorem operandA_getLsbD (x : Inputs) (len j : Nat) :
    (x.operandA len).getLsbD j = (decide (j < len) && x.opa.getLsbD j) :=
  BitVec.getLsbD_setWidth ..

theorem operandB_getLsbD (x : Inputs) (len j : Nat) :
    (x.operandB len).getLsbD j = (decide (j < len) && x.opb.getLsbD j) :=
  BitVec.getLsbD_setWidth ..

/-- The row and the column of OPA[3:0] in the bits of OPA (42_sbox R172). -/
theorem sboxRow_operandA (x : Inputs) :
    sboxRow (x.operandA 4) = 2 * (x.opa.getLsbD 3).toNat + (x.opa.getLsbD 0).toNat := by
  rw [sboxRow, operandA_getLsbD, operandA_getLsbD]
  rfl

theorem sboxCol_operandA (x : Inputs) :
    sboxCol (x.operandA 4) = 2 * (x.opa.getLsbD 2).toNat + (x.opa.getLsbD 1).toNat := by
  rw [sboxCol, operandA_getLsbD, operandA_getLsbD]
  rfl

/-- Settles O15: the lookup reads the entry at the row and the column of OPA[3:0]. -/
theorem sboxLooksUpSelectedEntry : Obligations.SboxLooksUpSelectedEntry := by
  rintro s row col hrow hcol
  rw [← sboxRow_operandA] at hrow
  rw [← sboxCol_operandA] at hcol
  subst hrow hcol
  exact ⟨sboxRow_lt _, sboxCol_lt _, sboxLookup (s.inputs.operandA 4) s.inputs.s0,
    sboxLookup (s.inputs.operandA 4) s.inputs.s1, exec_of_ok (i := .sbox .s0) rfl,
    exec_of_ok (i := .sbox .s1) rfl, sboxEntry_toNat _ _ _, sboxEntry_toNat _ _ _⟩

/-! ### ROTL, XOR and PERM -/

/-- Settles O16: the check of N decides, and the rotation is the one of strings. -/
theorem rotlRotatesOrRaisesDomainError : Obligations.RotlRotatesOrRaisesDomainError := by
  refine fun s lenA n _ _ => ⟨fun h => ?_, fun h => exec_of_error (e := .domain) (if_pos h)⟩
  obtain ⟨out, hout, sout⟩ := (rotationMovesLeadingCharacters lenA n (s.inputs.operandA lenA)).1 h
  have hres : commandResult (.rotl lenA n) s.inputs = .ok { result := some (lenA, out.setWidth 10) } := by
    rw [commandResult, rotlResult, hout]
    rfl
  exact ⟨out, exec_of_ok hres, sout⟩

/-- Settles O17: the check of the widths decides, and the exclusive OR is taken bit by bit. -/
theorem xorCombinesOrRaisesLengthMismatch : Obligations.XorCombinesOrRaisesLengthMismatch := by
  refine fun s lenA lenB _ _ _ _ =>
    ⟨fun h => ?_, fun h => exec_of_error (e := .lengthMismatch) (if_pos h)⟩
  subst h
  have hres : commandResult (.xor lenA lenA) s.inputs = .ok
      { result := some (lenA, (s.inputs.operandA lenA ^^^ s.inputs.operandB lenA).setWidth 10) } := by
    rw [commandResult, xorResult, xorBits_same]
    rfl
  refine ⟨_, exec_of_ok hres, fun j hj => ?_⟩
  change BitVec.getLsbD (BitVec.setWidth 10 _) j = _
  rw [BitVec.getLsbD_setWidth, BitVec.getLsbD_xor, operandA_getLsbD, operandB_getLsbD]
  by_cases hjA : j < lenA <;> simp [hj, hjA]

/-- PERM with a table whose entries the operand has: the gathered characters (40_permuter R135). -/
theorem exec_perm_of_within {s : State} {table : PermTable} {lenA m : Nat} {T : List Nat}
    (hT : selectTable s.inputs table = .ok T) (h : entriesWithin lenA T) (hlen : T.length = m) :
    ∃ out : BitVec m,
      exec (.perm table lenA) s =
        .next (s.succeeded { s.outputs with res := out.setWidth 10 } (BitVec.ofNat 4 m)) ∧
      stringOf out = strApply (stringOf (s.inputs.opa.setWidth lenA)) T := by
  subst hlen
  refine ⟨gather (s.inputs.operandA lenA) T, exec_of_ok (w := { result := some (T.length, _) }) ?_,
    stringOf_gather _ h⟩
  simp only [commandResult, permResult, hT, permute_ok _ _ h, bind, Except.bind]
  rfl

/-- PERM with a register table: the range check names the table in its error (40_permuter R135). -/
theorem exec_perm_of_table {s : State} {table : PermTable} {lenA : Nat} {T : List Nat}
    (hT : selectTable s.inputs table = .ok T)
    (herr : firstError (.perm table lenA) s.inputs =
      if inRange lenA T then none else some (.configuration table)) :
    (entriesWithin lenA T → ∃ out : BitVec T.length,
      exec (.perm table lenA) s =
        .next (s.succeeded { s.outputs with res := out.setWidth 10 } (BitVec.ofNat 4 T.length)) ∧
      stringOf out = strApply (stringOf (s.inputs.opa.setWidth lenA)) T) ∧
    (¬ entriesWithin lenA T →
      exec (.perm table lenA) s = .next (s.failed 1 (errtabOfTable table))) := by
  refine ⟨fun h => exec_perm_of_within hT h rfl, fun h => ?_⟩
  rw [← inRange_iff] at h
  exact exec_of_error (herr.trans (if_neg h))

/-- Settles O18: each of the five tables is one that PERM selects and checks. -/
theorem permAppliesARegisterTable : Obligations.PermAppliesARegisterTable := by
  intro s lenA _ _ p hp
  simp only [List.mem_cons, List.not_mem_nil, or_false] at hp
  obtain rfl | rfl | rfl | rfl | rfl := hp
  · exact exec_perm_of_table (table := .p10) rfl rfl
  · exact exec_perm_of_table (table := .p8) rfl rfl
  · exact exec_perm_of_table (table := .ip) rfl rfl
  · exact exec_perm_of_table (table := .ep) rfl rfl
  · exact exec_perm_of_table (table := .p4) rfl rfl

/-- The inverse applied to a string puts character `i` at the place that entry `i` of IP names. -/
theorem strApply_inverse_getElem? {x : Inputs} {inv : List Nat} (h : x.inverseIs inv)
    {bits : List Bool} (hbits : 8 ≤ bits.length) {i : Nat} (hi : i < 8) :
    (strApply bits inv)[x.tableIp.getD i 0 - 1]? = bits[i]? := by
  have hib : i < bits.length := by omega
  rw [strApply, List.getElem?_map, h.2 i hi, Option.map_some, Nat.add_sub_cancel,
    List.getD_eq_getElem _ _ hib, List.getElem?_eq_getElem hib]

/-- Settles O19: IP is checked first; the inverse of a legal IP is in range exactly from width 8 on. -/
theorem permAppliesTheDerivedInverse : Obligations.PermAppliesTheDerivedInverse := by
  refine fun s lenA _ _ => ⟨fun hip h8 => ?_, fun hbad => ?_, fun hip h8 => ?_⟩
  · obtain ⟨hin, hn⟩ := hip
    have hT : selectTable s.inputs .ipInv = .ok (invertTable s.inputs.tableIp) :=
      ipInverse_ok ((tableOk_ip _).2 ⟨hin, hn⟩)
    have hinv := invertTable_inverseIs s.inputs hin hn
    obtain ⟨out, hexec, hstring⟩ :=
      exec_perm_of_within hT ((invertTable_entriesWithin_iff hin hn lenA).2 h8) hinv.1
    refine ⟨out, hexec, fun i hi => ?_⟩
    rw [hstring]
    exact strApply_inverse_getElem? hinv (by rwa [stringOf_length]) hi
  · have hip : ¬ s.inputs.tableOk .ip = true := mt (tableOk_ip _).1 hbad
    exact exec_of_error (e := .configuration .ip) (by simp [firstError, Inputs.permError, hip])
  · have hip := (tableOk_ip _).2 hip
    exact exec_of_error (e := .configuration .ipInv) (by simp [firstError, Inputs.permError, hip, h8])

/-! ### KEYSCHED and IPINV -/

/-- Settles O20: the checks pass, and the schedule is the one of strings. -/
theorem keyschedIsTheStringSchedule : Obligations.KeyschedIsTheStringSchedule := by
  intro s h10 h8
  obtain ⟨k1, k2, hk, hstring⟩ := keySchedule_string s.inputs.key h10 (tableP10_length _) h8
    (tableP8_length _)
  refine ⟨k1, k2, exec_of_ok (w := { subkeys := some (k1, k2) }) ?_, hstring⟩
  have hcheck : checkTables s.inputs [.p10, .p8] = .ok () :=
    checkTables_ok (by simp [tableOk_p10, tableOk_p8, h10, h8])
  simp only [commandResult, keyschedResult, hcheck, hk]
  rfl

theorem strApply_replicate {n : Nat} {T : List Nat} (h : entriesWithin n T) (b : Bool) :
    strApply (List.replicate n b) T = List.replicate T.length b := by
  refine List.eq_replicate_iff.2 ⟨strApply_length _ _, fun c hc => ?_⟩
  obtain ⟨t, ht, rfl⟩ := List.mem_map.1 hc
  have hlt : t - 1 < n := by have := h t ht; omega
  simp [hlt]

theorem strShift_replicate {n k : Nat} (h : k ≤ n) (b : Bool) :
    strShift (List.replicate n b) k = List.replicate n b := by
  simp [strShift, h]

/-- Permuting and rotating a constant string changes nothing but its length (43_key_scheduler R188). -/
theorem strKeySchedule_replicate {x : Inputs} (h10 : entriesWithin 10 x.tableP10)
    (h8 : entriesWithin 10 x.tableP8) (b : Bool) :
    strKeySchedule (List.replicate 10 b) x.tableP10 x.tableP8 =
      (List.replicate 8 b, List.replicate 8 b) := by
  have hleft : (strApply (List.replicate 10 b) x.tableP10).take 5 = List.replicate 5 b := by
    rw [strApply_replicate h10, tableP10_length, List.take_replicate]
    rfl
  have hright : (strApply (List.replicate 10 b) x.tableP10).drop 5 = List.replicate 5 b := by
    rw [strApply_replicate h10, tableP10_length, List.drop_replicate]
  have hsubkey : strApply (List.replicate 5 b ++ List.replicate 5 b) x.tableP8 =
      List.replicate 8 b := by
    rw [List.replicate_append_replicate, strApply_replicate h8, tableP8_length]
  rw [strKeySchedule, hleft, hright, strShift_replicate (show 1 ≤ 5 by decide),
    strShift_replicate (show 2 ≤ 5 by decide), hsubkey]

/-- A key whose characters are all `b` has the two subkeys whose characters are all `b`. -/
theorem exec_keysched_of_constant {s : State} (h10 : entriesWithin 10 s.inputs.tableP10)
    (h8 : entriesWithin 10 s.inputs.tableP8) {b : Bool} {k : BitVec 8}
    (hkey : stringOf s.inputs.key = List.replicate 10 b) (hk : stringOf k = List.replicate 8 b) :
    exec .keysched s = .next (s.succeeded { s.outputs with k1 := k, k2 := k } s.status.reslen) := by
  obtain ⟨k1, k2, hexec, hstring⟩ := keyschedIsTheStringSchedule s h10 h8
  rw [hkey, strKeySchedule_replicate h10 h8, ← hk] at hstring
  obtain ⟨h1, h2⟩ := Prod.mk.inj hstring
  rw [hexec, stringOf_injective h1, stringOf_injective h2]

/-- Settles O21: 0 and 0x3FF are the keys of one character, and so are 0 and 0xFF as subkeys. -/
theorem constantKeysGiveConstantSubkeys : Obligations.ConstantKeysGiveConstantSubkeys :=
  fun s h10 h8 =>
    ⟨fun hkey => exec_keysched_of_constant (b := false) h10 h8 (by rw [hkey]; decide) (by decide),
      fun hkey => exec_keysched_of_constant (b := true) h10 h8 (by rw [hkey]; decide) (by decide)⟩

/-- Settles O22: the packed table reads back as the derived inverse. -/
theorem ipinvPacksTheInverse : Obligations.IpinvPacksTheInverse := by
  refine fun s => ⟨fun ⟨hin, hn⟩ => ⟨packTable (invertTable s.inputs.tableIp), ?_, ?_⟩, fun hbad => ?_⟩
  · refine exec_of_ok (w := { ipinv := some _ }) ?_
    rw [commandResult, ipInverse_ok ((tableOk_ip _).2 ⟨hin, hn⟩)]
    rfl
  · rw [nibbles_packTable_invertTable hin hn]
    exact invertTable_inverseIs s.inputs hin hn
  · have hip : ¬ s.inputs.tableOk .ip = true := mt (tableOk_ip _).1 hbad
    exact exec_of_error (e := .configuration .ip)
      (by simp [firstError, checkedTables, Inputs.firstBadTable, hip])

/-! ### ROUND, ENCRYPT and DECRYPT -/

/-- Settles O23: EP is checked before P4, and the round is the one of strings. -/
theorem roundIsTheStringRound : Obligations.RoundIsTheStringRound := by
  refine fun s => ⟨fun hep hp4 => ?_, fun hbad => ?_, fun hep hbad => ?_⟩
  · obtain ⟨b, hb, hstring⟩ := feistelRound_roundTables_string hep hp4.1 (s.inputs.operandA 8)
      (s.inputs.operandB 8)
    refine ⟨b, exec_of_ok (w := { result := some (8, b.setWidth 10) }) ?_, hstring⟩
    have hcheck : checkTables s.inputs [.ep, .p4] = .ok () :=
      checkTables_ok (by simp [tableOk_ep, tableOk_p4, hep, hp4])
    simp only [commandResult, roundResult, hcheck, bind, Except.bind, hb]
    rfl
  · have hbad' : ¬ s.inputs.tableOk .ep = true := mt (tableOk_ep _).1 hbad
    exact exec_of_error (e := .configuration .ep)
      (by simp [firstError, checkedTables, Inputs.firstBadTable, hbad'])
  · have hep' := (tableOk_ep _).2 hep
    have hbad' : ¬ s.inputs.tableOk .p4 = true := mt (tableOk_p4 _).1 hbad
    exact exec_of_error (e := .configuration .p4)
      (by simp [firstError, checkedTables, Inputs.firstBadTable, hep', hbad'])

theorem inverseIs_packed {x : Inputs} (h : x.tablesLegal) :
    x.inverseIs (nibbles 8 (packTable (invertTable x.tableIp))) := by
  obtain ⟨-, -, ⟨hip, hn⟩, -⟩ := h
  rw [nibbles_packTable_invertTable hip hn]
  exact invertTable_inverseIs x hip hn

/-- Settles O24: the schedule and the rounds with K1 first, each on strings. -/
theorem encryptIsTheStringCipher : Obligations.EncryptIsTheStringCipher := by
  intro s h
  have ⟨h10, h8, ⟨hip, hn⟩, _⟩ := h
  obtain ⟨k1, k2, hk, hkeys⟩ := keySchedule_string s.inputs.key h10 (tableP10_length _) h8
    (tableP8_length _)
  obtain ⟨ct, hct, hstring⟩ := cipherRounds_string h s.inputs.din k1 k2
  rw [← nibbles_packTable_invertTable hip hn] at hstring
  exact ⟨ct, k1, k2, _, exec_encrypt_of_rounds h hk hct, hkeys, inverseIs_packed h, hstring⟩

/-- Settles O25: the same with K2 first. -/
theorem decryptIsTheReversedStringCipher : Obligations.DecryptIsTheReversedStringCipher := by
  intro s h
  have ⟨h10, h8, ⟨hip, hn⟩, _⟩ := h
  obtain ⟨k1, k2, hk, hkeys⟩ := keySchedule_string s.inputs.key h10 (tableP10_length _) h8
    (tableP8_length _)
  obtain ⟨pt, hpt, hstring⟩ := cipherRounds_string h s.inputs.din k2 k1
  rw [← nibbles_packTable_invertTable hip hn] at hstring
  exact ⟨pt, k1, k2, _, exec_decrypt_of_rounds h hk hpt, hkeys, inverseIs_packed h, hstring⟩

end Sys2Proof.Machine
